-- ==== Sys2Proof/Word.lean ====
section
/-! DEFINITION. The word types of the queenmod CORE (00_scope.md R7, R9). -/

namespace Sys2Proof

/-- A filter-path value: a sample, a coefficient, an offset, a history slot (`SAMPLE_W` = 16, signed, R7). -/
abbrev Sample := BitVec 16

/-- A generation sample, an element of `GEN_BUF` (`OUT_W` = 8, unsigned, R7, R62). -/
abbrev GenSample := BitVec 8

/-- An entry of the waveform table (`MAG_W` = 24, unsigned, R7, R68). -/
abbrev Magnitude := BitVec 24

/-- An event word `EV[7:0]` (R90). -/
abbrev EventWord := BitVec 8

/-- The shift field of a bank record (`SHIFT_W` = 4, R7, R66, R67). -/
abbrev ShiftField := BitVec 4

/-- `NB_FIR`, the number of FIR banks (R7, R69). -/
abbrev nbFir : Nat := 5

/-- `NB_IIR`, the number of IIR banks (R7, R69). -/
abbrev nbIir : Nat := 5

/-- `N_TAB`, the number of entries of the waveform table (R7). -/
abbrev nTab : Nat := 36

/-- `N_ACQ`, the samples of an acquisition buffer, also the number of taps (R7). -/
abbrev nAcq : Nat := 16

/-- `N_GEN`, the samples of a generation buffer (R7). -/
abbrev nGen : Nat := 256

/-- An output channel, 0 or 1 (`NCH` = 2, R7). -/
abbrev Channel := Fin 2

end Sys2Proof
end

