-- ==== Sys2Proof/Syntax.lean ====
section
/-! DEFINITION. The events of the CORE, which stand in the place of instructions (R1, R92), and the form in which
an event reaches the event port (R90, R91). -/

namespace Sys2Proof

/-- The twelve events of R92, one constructor per row of spec/opcode_table.json. -/
inductive Instr where
  /-- `IDLE`: no event happens (R211). -/
  | idle
  /-- `ACQ.DONE data[0..15]`: the acquisition adapter has filled its buffer (R121); `data[0]` is the oldest sample. -/
  | acqDone (data : List Sample)
  /-- `ACQ.BEGIN`: the engine starts an acquisition service (R123). -/
  | acqBegin
  /-- `ACQ.END`: the engine finishes an acquisition service (R156). -/
  | acqEnd
  /-- `ACQ.ERR`: the acquisition adapter reports a transfer fault (R124). -/
  | acqErr
  /-- `GEN.DONE`: the generation adapter has drained its buffer (R125). -/
  | genDone
  /-- `GEN.BEGIN`: the engine starts a generation service (R126). -/
  | genBegin
  /-- `GEN.END`: the engine finishes a generation service (R178). -/
  | genEnd
  /-- `GEN.ERR`: the generation adapter reports a transfer fault (R127). -/
  | genErr
  /-- `TICK level`: the tick source fires; `true` is the pressed level (R93, R194). -/
  | tick (level : Bool)
  /-- `CFGF`: the setup code reports a configuration fault (R213). -/
  | cfgf
  /-- `RST`: power-on or hardware reset (R260). -/
  | rst
  deriving DecidableEq, Repr

/-- What stands on the ports at one event: the event word, and the samples on the separate data port, which only
`ACQ.DONE` looks at (R90, R91 format P). -/
structure PortEvent where
  word : EventWord
  data : List Sample
  deriving DecidableEq, Repr

end Sys2Proof
end

