-- ==== Sys2Proof/WellFormed.lean ====
section
/-! DEFINITION. When an event is well formed: the one check the syntax leaves open is the length of the payload of
`ACQ.DONE` (R91, R93, R95, R98). -/

namespace Sys2Proof

/-- The payload of `ACQ.DONE` is exactly 16 samples (R95); no other event has an operand that could be wrong. -/
def Instr.wellFormed (i : Instr) : Bool :=
  match i with
  | .acqDone data => data.length == nAcq
  | .idle => true
  | .acqBegin => true
  | .acqEnd => true
  | .acqErr => true
  | .genDone => true
  | .genBegin => true
  | .genEnd => true
  | .genErr => true
  | .tick _ => true
  | .cfgf => true
  | .rst => true

/-- `wellFormed` as a proposition. -/
abbrev Instr.WellFormed (i : Instr) : Prop := i.wellFormed = true

end Sys2Proof
end

