-- ==== Sys2Proof/Decode.lean ====
section
/-! DEFINITION. Decoding an event word (30_encoding.md R90 to R95), the encoder, and the encoded form of a trace (R98). -/

namespace Sys2Proof

/-- Why what stands on the ports is no event of the table. -/
inductive Reject where
  /-- One of the 243 reserved words (R94): not an event of the table, but a word with a meaning of its own (R214). -/
  | reserved (w : EventWord)
  /-- `ACQ.DONE` without exactly 16 samples on the data port, which R95 excludes. -/
  | badPayload
  deriving DecidableEq, Repr

/-- The operation fields of the Z format (R91, R92, R95). -/
def isZ (op : Nat) : Bool :=
  op ≤ 8 || op == 10

/-- The Z-format event with operation field `op`, where there is one (R92). -/
def decodeZ (op : Nat) (e : PortEvent) : Except Reject Instr :=
  match op with
  | 0 => .ok .idle
  | 1 => if e.data.length = nAcq then .ok (.acqDone e.data) else .error .badPayload
  | 2 => .ok .acqBegin
  | 3 => .ok .acqEnd
  | 4 => .ok .acqErr
  | 5 => .ok .genDone
  | 6 => .ok .genBegin
  | 7 => .ok .genEnd
  | 8 => .ok .genErr
  | 10 => .ok .cfgf
  | _ => .error (.reserved e.word)

/-- R95, clause by clause: `RST`, then the Z format, then `TICK`, else reserved. -/
def decode (e : PortEvent) : Except Reject Instr :=
  if e.word = 0xFF then .ok .rst
  else if e.word.extractLsb' 0 4 = 0 ∧ isZ (e.word.extractLsb' 4 4).toNat = true then
    decodeZ (e.word.extractLsb' 4 4).toNat e
  else if e.word.extractLsb' 1 7 = 0b1001000 then .ok (.tick (e.word.getLsbD 0))
  else .error (.reserved e.word)

/-- The word (and, for `ACQ.DONE`, the payload) that stands for an event (R92). -/
def encode (i : Instr) : PortEvent :=
  match i with
  | .idle => ⟨0x00, []⟩
  | .acqDone data => ⟨0x10, data⟩
  | .acqBegin => ⟨0x20, []⟩
  | .acqEnd => ⟨0x30, []⟩
  | .acqErr => ⟨0x40, []⟩
  | .genDone => ⟨0x50, []⟩
  | .genBegin => ⟨0x60, []⟩
  | .genEnd => ⟨0x70, []⟩
  | .genErr => ⟨0x80, []⟩
  | .tick level => ⟨if level then 0x91 else 0x90, []⟩
  | .cfgf => ⟨0xA0, []⟩
  | .rst => ⟨0xFF, []⟩

/-- `n` samples of 16 bits taken from a number, the lowest bits first. -/
def unpackSamples (n v : Nat) : List Sample :=
  match n with
  | 0 => []
  | k + 1 => BitVec.ofNat 16 v :: unpackSamples k (v / 65536)

/-- The samples of a payload as one number, the first in the lowest bits. -/
def packSamples (data : List Sample) : Nat :=
  match data with
  | [] => 0
  | x :: rest => x.toNat + 65536 * packSamples rest

/-- What stands on the ports when the bits of an event are `w`: the word in bits 7 to 0, the payload above it, bits
from `nbits` on being 0 (DESIGN CHOICE, log 10: the spec gives the payload no bit numbers). -/
def portEventOfBits (nbits w : Nat) : PortEvent :=
  let v := w % 2 ^ nbits
  ⟨BitVec.ofNat 8 v, unpackSamples nAcq (v / 256)⟩

/-- The bits of an event, numbered as `portEventOfBits` reads them. -/
def encodeBits (i : Instr) : Nat :=
  (encode i).word.toNat + 256 * packSamples (encode i).data

/-- The instruction the decoder reads from the bits `w` of an event. -/
def decodeTableWord (nbits w : Nat) : Option Instr :=
  match decode (portEventOfBits nbits w) with
  | .ok i => some i
  | .error _ => none

/-- One item of the encoded form of a trace: an event word, or a sample of a payload (R98). -/
inductive TraceItem where
  | word (w : EventWord)
  | sample (v : Sample)
  deriving DecidableEq, Repr

/-- The encoded form of one event: its word followed by its samples (R98). -/
def traceItems (e : PortEvent) : List TraceItem :=
  .word e.word :: e.data.map .sample

/-- The encoded form of a trace: its events in order (R98). A trace is a list of events of the table, so it holds no reserved
word (DESIGN CHOICE, log 24). -/
def encodeTrace (tr : List Instr) : List TraceItem :=
  match tr with
  | [] => []
  | i :: rest => traceItems (encode i) ++ encodeTrace rest

/-- The samples that stand before the first event word, and the events of the rest as they stand on the ports, reserved
words included (log 24). -/
def groupItems (items : List TraceItem) : List Sample × List PortEvent :=
  match items with
  | [] => ([], [])
  | .sample v :: rest => (v :: (groupItems rest).1, (groupItems rest).2)
  | .word w :: rest => ([], ⟨w, (groupItems rest).1⟩ :: (groupItems rest).2)

/-- Decode every event of a list, stopping at the first that is no event of the table, a reserved word among them
(DESIGN CHOICE, log 24). -/
def decodeEvents (events : List PortEvent) : Except Reject (List Instr) :=
  match events with
  | [] => .ok []
  | e :: rest =>
    match decode e, decodeEvents rest with
    | .ok i, .ok is => .ok (i :: is)
    | .error r, _ => .error r
    | .ok _, .error r => .error r

/-- Read the encoded form of a trace back; samples before the first word are a payload of no event (R98). -/
def decodeTrace (items : List TraceItem) : Except Reject (List Instr) :=
  match groupItems items with
  | ([], events) => decodeEvents events
  | (_ :: _, _) => .error .badPayload

end Sys2Proof
end

