-- ==== Sys2Proof/Config.lean ====
section
/-! DEFINITION. The implementation parameters of R7 that the spec leaves OPEN, and the free values. How the parameters
are looked up stands in Machine/Operands.lean. -/

namespace Sys2Proof

/-- A record of `FIR_BANK` (R66). -/
structure FirRecord where
  taps : Vector Sample nAcq
  shift : ShiftField
  offset : Sample
  deriving DecidableEq, Repr, Inhabited

/-- A record of `IIR_BANK` (R67): three numerator and two denominator coefficients, in slot order. -/
structure IirRecord where
  c0 : Sample
  c1 : Sample
  c2 : Sample
  c3 : Sample
  c4 : Sample
  shift : ShiftField
  deriving DecidableEq, Repr, Inhabited

/-- The open parameters (R7, decisions D27 and D28). Every value of this type is a configuration the spec allows: the
two entries the document fixes (`FIR_BANK[0][0]`, R66, and `TABLE[0]`, R68) are not held here, and the thresholds are held so that
`1 <= T_SHORT < T_LONG` cannot fail (R191, U11). -/
structure Config where
  /-- `FIR_BANK[1][0]` to `FIR_BANK[4][0]`. -/
  firCh0 : Vector FirRecord 4
  /-- `FIR_BANK[0][1]` to `FIR_BANK[4][1]`. -/
  firCh1 : Vector FirRecord nbFir
  /-- `IIR_BANK[0]` to `IIR_BANK[4]`. -/
  iirBanks : Vector IirRecord nbIir
  /-- `TABLE[1]` to `TABLE[35]`. -/
  tableRest : Vector Magnitude 35
  /-- `T_SHORT - 1`. -/
  tShortPred : Nat
  /-- `T_LONG - T_SHORT - 1`. -/
  tGap : Nat
  deriving DecidableEq, Repr, Inhabited

/-- The parameters of the machine after power-on: OPEN in the spec (D27, D28), so a constant of which nothing can be
proved (DESIGN CHOICE, log 6). -/
opaque Config.installed : Config

/-- The free value of a read of an acquisition sample that has no defined value: unwritten since reset (R63) or read
by a torn service (R157). Applied to a fresh counter value at each read (DESIGN CHOICE, log 3). -/
opaque Config.freeSample : Nat → Sample

/-- The free value of a read of a generation element that nothing has written since reset (R63, R64)
(DESIGN CHOICE, log 4). -/
opaque Config.freeOutput : Nat → GenSample

/-- Whether an element of a torn write takes its new value (R179) (DESIGN CHOICE, log 5). -/
opaque Config.freeChoice : Nat → Bool

/-- Whether the acquisition stream goes first where the engine has an enabled event of each stream and nothing is
presented (R216, R218) (DESIGN CHOICE, log 23). -/
opaque Config.freeTurn : Nat → Bool

end Sys2Proof
end

