-- ==== Sys2Proof/Machine/State.lean ====
section
/-! DEFINITION. The state of the CORE (10_state.md R20 to R39, 20_memory.md R60 to R63), its reset value (R39, R260, R261), and the
reasons a step can stop. -/

namespace Sys2Proof.Machine

/-- A memory space of `w`-bit elements: the elements written since reset, as (element index, value) pairs with strictly
rising indices. An index that is not listed has not been written since reset and reads as no defined value (R63). -/
abbrev Cells (w : Nat) := List (Nat × BitVec w)

/-- One Double-Buffer Exchange (R120): the six bits each stream has (R24, R26). -/
structure Exchange where
  /-- `CT_s`: the buffer the adapter owns. -/
  ct : BitVec 1
  /-- `PEND_s`: a completion waits for service. -/
  pend : Bool
  /-- `BUSY_s`: a service is in progress. -/
  busy : Bool
  /-- `CUR_s`: the buffer the service in progress works on. -/
  cur : BitVec 1
  /-- `DROP_s`: a frame was dropped since reset. -/
  drop : Bool
  /-- `TORN_s`: the buffer of the service in progress was handed back to the adapter. -/
  torn : Bool
  deriving DecidableEq, Repr

/-- The five history slots of one IIR section, slot 0 the head (R21). -/
structure History where
  h0 : Sample
  h1 : Sample
  h2 : Sample
  h3 : Sample
  h4 : Sample
  deriving DecidableEq, Repr

/-- The two cascaded sections of one channel, `IIRS[ch][0]` and `IIRS[ch][1]` (R21). -/
structure Cascade where
  sec0 : History
  sec1 : History
  deriving DecidableEq, Repr

/-- `IIRS`, SE9: the history file of both channels (R21). -/
structure IirFile where
  ch0 : Cascade
  ch1 : Cascade
  deriving DecidableEq, Repr

/-- The modulator's register file, SE16 to SE18 (R32). -/
structure Modulator where
  /-- `LFSR`. -/
  lfsr : BitVec 16
  /-- `ACC[0]`. -/
  acc0 : BitVec 16
  /-- `ACC[1]`. -/
  acc1 : BitVec 16
  /-- `ACC[2]`. -/
  acc2 : BitVec 16
  /-- `DC[0]`, one bit. -/
  dc0 : BitVec 1
  /-- `DC[1]`, signed 3 bits. -/
  dc1 : BitVec 3
  deriving DecidableEq, Repr

/-- `RUNST`, SE23 (R31). -/
inductive RunState where
  | run
  | halt
  deriving DecidableEq, Repr

/-- `CAUSE`, SE24: why the CORE halted (R31). Code 3 is never written, so it is no value of this type. -/
inductive Cause where
  | none
  | unexpectedInterrupt
  | configurationFault
  deriving DecidableEq, Repr

/-- The event of a debounce step (R193). -/
inductive DebEvent where
  | none
  | short
  | long
  deriving DecidableEq, Repr

/-- The output record of an event (R96). -/
inductive OutputRecord where
  /-- No output. -/
  | none
  /-- `ACQ.END`: `out_strobe` with the two new output samples. -/
  | strobe (out0 out1 : Sample)
  /-- `GEN.DONE`: the samples the adapter drained. -/
  | emit (samples : List GenSample)
  /-- `TICK`: the debounce event. -/
  | debounce (ev : DebEvent)
  /-- A halting event: the diagnostic. -/
  | diagnostic (cause : Cause) (info : EventWord)
  deriving DecidableEq, Repr

/-- The state of the CORE: SE1 to SE26 and the two buffer memories, exactly (R20), followed by the model's own fields. -/
structure State where
  /-- SE1 to SE4, SE7, SE8: the acquisition stream's Exchange. -/
  acq : Exchange
  /-- SE5 `LMF_A`: the latched FIR mode. -/
  lmf : Fin nbFir
  /-- SE6 `LMI_A`: the latched IIR mode. -/
  lmi : Fin nbIir
  /-- SE9 `IIRS`. -/
  iirs : IirFile
  /-- SE10 `OUT[0]`. -/
  out0 : Sample
  /-- SE10 `OUT[1]`. -/
  out1 : Sample
  /-- SE11 to SE15, SE26: the generation stream's Exchange. -/
  gen : Exchange
  /-- SE16 to SE18: the modulator. -/
  modu : Modulator
  /-- SE19 `TIDX`. -/
  tidx : Fin nTab
  /-- SE20 `T`. -/
  t : Nat
  /-- SE21 `FIR_MODE`. -/
  firMode : Fin nbFir
  /-- SE22 `IIR_MODE`. -/
  iirMode : Fin nbIir
  /-- SE23 `RUNST`. -/
  runst : RunState
  /-- SE24 `CAUSE`. -/
  cause : Cause
  /-- SE25 `INFO`. -/
  info : EventWord
  /-- `ACQ_BUF` (R61). -/
  acqBuf : Cells 16
  /-- `GEN_BUF` (R62). -/
  genBuf : Cells 8
  /-- The model's own: the open parameters, never written (R7, R65; log 6). -/
  config : Config
  /-- The model's own: the events still to be presented (R20 (c); log 1). -/
  port : List PortEvent
  /-- The model's own: the output record of the latest event (R96; log 2). -/
  output : OutputRecord
  /-- The model's own: how many acquisition-side free values have been drawn (log 3). -/
  freeAcq : Nat
  /-- The model's own: how many generation-side free values have been drawn (log 4, log 5). -/
  freeGen : Nat
  /-- The model's own: how many free turns of the engine have been drawn (log 23). -/
  freeTurn : Nat
  deriving DecidableEq, Repr

/-- Why a step can stop with a fault: the two model-level faults, for which the spec orders the run to stop with no
next state (R14, R240). Both are safe: the model claims nothing of what follows. -/
inductive Fault where
  /-- `AccRange` (R143): raised by `smacc`, so by `ACQ.END`, when an intermediate sum leaves the signed 32-bit range. Safe. -/
  | accRange
  /-- `ModRange` (R176): raised by `mod_step`, so by `GEN.END`, when an output sample leaves 0..255. Safe. -/
  | modRange
  deriving DecidableEq, Repr

/-- Why a step can be refused: what was presented is no run of the CORE (R14, R241). -/
inductive Refusal where
  /-- An event that has no meaning yet; no arm of exec answers it any more. Safe. -/
  | notModelled (mnemonic : String)
  /-- An engine event whose enabling condition does not hold (R215). Raised by the four engine events. Safe. -/
  | notEnabled (mnemonic : String)
  /-- `ACQ.DONE` with a payload that is not 16 samples, which cannot be presented (R95). Safe. -/
  | badPayload
  deriving DecidableEq, Repr

/-- An Exchange at reset (R39, R261): the adapter owns buffer 0, all flags 0. -/
def Exchange.reset : Exchange :=
  { ct := 0, pend := false, busy := false, cur := 0, drop := false, torn := false }

/-- A history at reset (R21, R39): five zero slots. -/
def History.reset : History :=
  { h0 := 0, h1 := 0, h2 := 0, h3 := 0, h4 := 0 }

/-- The history file at reset (R39): 20 zero slots. -/
def IirFile.reset : IirFile :=
  { ch0 := { sec0 := History.reset, sec1 := History.reset }, ch1 := { sec0 := History.reset, sec1 := History.reset } }

/-- The modulator at reset (R32, R39): "register = 1, accumulators = 0, carries = 0". -/
def Modulator.reset : Modulator :=
  { lfsr := 1, acc0 := 0, acc1 := 0, acc2 := 0, dc0 := 0, dc1 := 0 }

/-- The machine right after reset (R39, R261); the buffer memories hold nothing defined (R63). The model's own fields
take the values of log 1, 2, 6, 7 and 23. -/
def State.reset : State :=
  { acq := Exchange.reset
    lmf := 0
    lmi := 0
    iirs := IirFile.reset
    out0 := 0
    out1 := 0
    gen := Exchange.reset
    modu := Modulator.reset
    tidx := 0
    t := 0
    firMode := 0
    iirMode := 0
    runst := .run
    cause := .none
    info := 0
    acqBuf := []
    genBuf := []
    config := Config.installed
    port := []
    output := .none
    freeAcq := 0
    freeGen := 0
    freeTurn := 0 }

end Sys2Proof.Machine
end

