-- ==== Sys2Proof/Machine/Flags.lean ====
section
/-! DEFINITION. The bits of one Double-Buffer Exchange: what each of the four events of a stream makes of them
(10_state.md R24, R26, 40_double_buffer.md R120 to R130). The CORE has no other flags (R25). -/

namespace Sys2Proof.Machine

/-- A completion that finds the previous one not fully serviced is a missed deadline (R128). -/
def Exchange.missed (x : Exchange) : Bool :=
  x.pend || x.busy

/-- `DROP_s` after a completion: sticky, set by a missed deadline (R121 and R125 step 2). -/
def Exchange.dropAfterDone (x : Exchange) : Bool :=
  x.drop || x.missed

/-- `TORN_s` after a completion or a transfer fault: set while a service is in progress (R121, R124, R125, R127). -/
def Exchange.tornAfterHandover (x : Exchange) : Bool :=
  x.torn || x.busy

/-- `s.DONE`, steps 2 to 5 (R121, R125). -/
def Exchange.complete (x : Exchange) : Exchange :=
  { x with
    drop := x.dropAfterDone
    torn := x.tornAfterHandover
    ct := ~~~x.ct
    pend := true }

/-- `s.BEGIN`: acknowledge, identify the completed buffer, start the service (R123, R126). -/
def Exchange.accept (x : Exchange) : Exchange :=
  { x with
    pend := false
    cur := ~~~x.ct
    busy := true }

/-- `s.END`: the service is over (R156 step 3, R178 step 5). -/
def Exchange.finish (x : Exchange) : Exchange :=
  { x with
    busy := false
    torn := false }

/-- `s.ERR`: clear the fault indication and re-arm the adapter at buffer 0 (R124, R127). -/
def Exchange.rearm (x : Exchange) : Exchange :=
  { x with
    drop := true
    pend := false
    ct := 0
    torn := x.tornAfterHandover }

/-- `s.BEGIN` is enabled, as far as the stream is concerned (R215). -/
def Exchange.canBegin (x : Exchange) : Bool :=
  x.pend && !x.busy

/-- The 2-bit code of `CAUSE` (R31). -/
def Cause.code (c : Cause) : BitVec 2 :=
  match c with
  | .none => 0
  | .unexpectedInterrupt => 1
  | .configurationFault => 2

end Sys2Proof.Machine
end

