-- ==== Sys2Proof/Machine/Operands.lean ====
section
/-! DEFINITION. Where the operands of the events come from: the parameters and the read-only tables (R7, R65 to R69,
R191), the split of a magnitude (R173), and the arithmetic operators of the notation (R10, R11). -/

namespace Sys2Proof

/-- `T_SHORT`, at least 1 (R191). -/
def Config.tShort (c : Config) : Nat :=
  c.tShortPred + 1

/-- `T_LONG`, greater than `T_SHORT` (R191). -/
def Config.tLong (c : Config) : Nat :=
  c.tShort + c.tGap + 1

/-- `CNT_W`, the smallest width that holds `T_LONG + 1` (R7). -/
def Config.cntW (c : Config) : Nat :=
  Nat.log2 (c.tLong + 1) + 1

/-- `FIR_BANK[0][0]`, the one record the document gives (R66). -/
def documentedFir : FirRecord :=
  { taps := #v[0, 1247, 2304, 3011, 3259, 3011, 2304, 1247, 0, -1247, -2304, -3011, -3259, -3011, -2304, -1247]
    shift := 11
    offset := 0 }

/-- `FIR_BANK[m][ch]` (R66, R148). -/
def Config.firBank (c : Config) (m : Fin nbFir) (ch : Channel) : FirRecord :=
  match ch with
  | 0 =>
    match m with
    | ⟨0, _⟩ => documentedFir
    | ⟨k + 1, h⟩ => c.firCh0[k]'(Nat.lt_of_succ_lt_succ h)
  | 1 => c.firCh1[m]

/-- `IIR_BANK[m]` (R67); one record serves both sections and both channels (R154). -/
def Config.iirBank (c : Config) (m : Fin nbIir) : IirRecord :=
  c.iirBanks[m]

/-- `TABLE[k]`; entry 0 is the document's (R68). -/
def Config.table (c : Config) (k : Fin nTab) : Magnitude :=
  match k with
  | ⟨0, _⟩ => 0xfae147
  | ⟨j + 1, h⟩ => c.tableRest[j]'(Nat.lt_of_succ_lt_succ h)

/-- The coefficients of an IIR record in slot order (R67). -/
def IirRecord.coefficients (r : IirRecord) : List Sample :=
  [r.c0, r.c1, r.c2, r.c3, r.c4]

/-- The high bits `mag[23:16]` of a magnitude (R173). -/
def magHigh (mag : Magnitude) : BitVec 8 :=
  mag.extractLsb' 16 8

/-- The low bits `mag[15:0]` of a magnitude (R173). -/
def magLow (mag : Magnitude) : BitVec 16 :=
  mag.extractLsb' 0 16

/-- `lsl(v, s)` (R11): exact, for any sign of `v`. -/
def lsl (v : Int) (s : Nat) : Int :=
  v * 2 ^ s

/-- `asr(v, s)` (R11): `floor(v / 2^s)`, rounding toward minus infinity (PRESUMED by the spec itself, entry G1; log 18). -/
def asr (v : Int) (s : Nat) : Int :=
  v / 2 ^ s

/-- `clamp(v, lo, hi)` (R11). -/
def clamp (v lo hi : Int) : Int :=
  if v < lo then lo else if v > hi then hi else v

/-- The one narrowing of the filter path: saturate to signed 16 bits (R142 (e)). -/
def narrow (v : Int) : Sample :=
  BitVec.ofInt 16 (clamp v (-32768) 32767)

/-- The signed 32-bit range of the accumulator (R142 (c), R143). -/
def inAccumulator (v : Int) : Bool :=
  decide (-2147483648 ≤ v) && decide (v ≤ 2147483647)

/-- The carry of an addition stage, bit 16 of its sum (R10, R174). -/
def carryBit (sum : Nat) : Nat :=
  sum / 65536 % 2

/-- The sum of the magnitudes of a list of coefficients, in the contract of R80. -/
def magnitudeSum (cs : List Sample) : Nat :=
  match cs with
  | [] => 0
  | x :: rest => x.toInt.natAbs + magnitudeSum rest

/-- The contract of R80 on a FIR record. -/
abbrev FirRecord.InContract (r : FirRecord) : Prop :=
  r.offset.toInt.natAbs * 2 ^ r.shift.toNat + 32768 * magnitudeSum r.taps.toList ≤ 2147483647

/-- The contract of R80 on an IIR record. -/
abbrev IirRecord.InContract (r : IirRecord) : Prop :=
  32768 * magnitudeSum r.coefficients ≤ 2147483647

/-- The contract of R68 on a table entry. -/
abbrev MagnitudeInContract (mag : Magnitude) : Prop :=
  3 ≤ (magHigh mag).toNat ∧ (magHigh mag).toNat ≤ 251

/-- Every bank record meets the contract of R80. -/
abbrev Config.BanksInContract (c : Config) : Prop :=
  (∀ m : Fin nbFir, ∀ ch : Channel, (c.firBank m ch).InContract) ∧ (∀ m : Fin nbIir, (c.iirBank m).InContract)

/-- Every table entry meets the contract of R68. -/
abbrev Config.TableInContract (c : Config) : Prop :=
  ∀ k : Fin nTab, MagnitudeInContract (c.table k)

/-- A configuration that meets the contracts of R68 and R80. -/
abbrev Config.InContract (c : Config) : Prop :=
  c.BanksInContract ∧ c.TableInContract

/-- The next bank of a selector: plus one, wrapping at the number of banks (R195). -/
def nextBank (n : Nat) (m : Fin n) : Fin n :=
  ⟨(m.val + 1) % n, Nat.mod_lt _ (Nat.lt_of_le_of_lt (Nat.zero_le _) m.isLt)⟩

/-- The names of the banks, in the order of their numbers (R69); what a bank does is its record and nothing else. -/
def bankName (m : Fin nbFir) : String :=
  match m with
  | 0 => "fundamental-frequency bandpass"
  | 1 => "second-harmonic bandpass"
  | 2 => "third-harmonic bandpass"
  | 3 => "square-wave approximation"
  | 4 => "pass-through/DC-block"

end Sys2Proof
end

