-- ==== Sys2Proof/Machine/Ops.lean ====
section
/-! DEFINITION. The operations the meanings share: access to the buffer memories (R13, R60, R63, R72, R157, R179), named
updates of the state, the two gates an event passes (R215, R237), entry into HALT and the reset that alone leaves it
(R236, R238, R260), and the event port (R90). -/

namespace Sys2Proof.Machine

/-! ### The buffer memories -/

/-- The cells of consecutive elements from index `base` on. -/
def Memory.cells (base : Nat) (vs : List (BitVec w)) : Cells w :=
  match vs with
  | [] => []
  | v :: rest => (base, v) :: Memory.cells (base + 1) rest

/-- The value of one element, `none` where nothing has written it since reset. -/
def Memory.read? (m : Cells w) (a : Nat) : Option (BitVec w) :=
  match m with
  | [] => none
  | c :: rest => if c.1 = a then some c.2 else Memory.read? rest a

/-- Put `new` in the place of the elements `base` to `base + n - 1`. -/
def Memory.splice (m : Cells w) (base n : Nat) (new : Cells w) : Cells w :=
  m.filter (fun c => c.1 < base) ++ new ++ m.filter (fun c => base + n ≤ c.1)

/-- `MemWrite(S:base, n, vs)` (R13). -/
def Memory.write (m : Cells w) (base : Nat) (vs : List (BitVec w)) : Cells w :=
  Memory.splice m base vs.length (Memory.cells base vs)

/-- `MemRead(S:base, n)` (R13). An element that has not been written since reset reads as a free value, another one at
each read (R63): `free` is applied to the counter `k` and on. -/
def Memory.read (free : Nat → BitVec w) (m : Cells w) (base n k : Nat) : List (BitVec w) :=
  match n with
  | 0 => []
  | n + 1 => (Memory.read? m base).getD (free k) :: Memory.read free m (base + 1) n (k + 1)

/-- `n` free values, from the counter `k` on: the samples of a torn read (R157). -/
def Memory.freeValues (free : Nat → BitVec w) (n k : Nat) : List (BitVec w) :=
  match n with
  | 0 => []
  | n + 1 => free k :: Memory.freeValues free n (k + 1)

/-- The cells a torn write leaves (R179): for each element, if `choose` says so the new value, else what the element
held before (which may be nothing defined). -/
def Memory.tornCells (choose : Nat → Bool) (m : Cells w) (base : Nat) (vs : List (BitVec w)) (k : Nat) : Cells w :=
  match vs with
  | [] => []
  | v :: rest =>
    match (if choose k then some v else Memory.read? m base) with
    | some u => (base, u) :: Memory.tornCells choose m (base + 1) rest (k + 1)
    | none => Memory.tornCells choose m (base + 1) rest (k + 1)

/-- The write of a torn service (R179). -/
def Memory.tornWrite (choose : Nat → Bool) (m : Cells w) (base : Nat) (vs : List (BitVec w)) (k : Nat) : Cells w :=
  Memory.splice m base vs.length (Memory.tornCells choose m base vs k)

/-- The canonical form of a space of `size` elements: indices strictly rising and inside the space. What an unlisted
element reads as is no value an entry could hold, so no entry repeats it. -/
abbrev Memory.wf (size : Nat) (m : Cells w) : Prop :=
  (m.map Prod.fst).Pairwise (· < ·) ∧ ∀ c ∈ m, c.1 < size

/-- The first element of buffer `b` of `ACQ_BUF` (R60). -/
def acqBase (b : BitVec 1) : Nat :=
  b.toNat * nAcq

/-- The first element of buffer `b` of `GEN_BUF` (R60). -/
def genBase (b : BitVec 1) : Nat :=
  b.toNat * nGen

/-! ### Named updates of the state -/

/-- The output record of this event (R96). -/
def State.withOutput (s : State) (o : OutputRecord) : State :=
  { s with output := o }

/-- An event that produces no output record. -/
def State.silent (s : State) : State :=
  s.withOutput .none

/-- Write the acquisition Exchange. -/
def State.withAcq (s : State) (x : Exchange) : State :=
  { s with acq := x }

/-- Write the generation Exchange. -/
def State.withGen (s : State) (x : Exchange) : State :=
  { s with gen := x }

/-- Write `ACQ_BUF`. -/
def State.withAcqBuf (s : State) (m : Cells 16) : State :=
  { s with acqBuf := m }

/-- Write `GEN_BUF`. -/
def State.withGenBuf (s : State) (m : Cells 8) : State :=
  { s with genBuf := m }

/-- Latch the two modes (R27). -/
def State.withLatched (s : State) (f : Fin nbFir) (i : Fin nbIir) : State :=
  { s with lmf := f, lmi := i }

/-- Write the history file and the two output registers. -/
def State.withFiltered (s : State) (file : IirFile) (o0 o1 : Sample) : State :=
  { s with iirs := file, out0 := o0, out1 := o1 }

/-- Write the modulator's register file. -/
def State.withModulator (s : State) (m : Modulator) : State :=
  { s with modu := m }

/-- Write `TIDX`. -/
def State.withTidx (s : State) (k : Fin nTab) : State :=
  { s with tidx := k }

/-- Write the debounce counter and the Mode selector. -/
def State.withDebounce (s : State) (t : Nat) (f : Fin nbFir) (i : Fin nbIir) : State :=
  { s with t := t, firMode := f, iirMode := i }

/-- Write `RUNST`, `CAUSE` and `INFO`. -/
def State.withRun (s : State) (r : RunState) (c : Cause) (w : EventWord) : State :=
  { s with runst := r, cause := c, info := w }

/-- What is still to be presented on the event port (log 1). -/
def State.withPort (s : State) (p : List PortEvent) : State :=
  { s with port := p }

/-- How many free turns of the engine have been drawn (log 23). -/
def State.withTurn (s : State) (k : Nat) : State :=
  { s with freeTurn := k }

/-- `n` acquisition-side free values have been drawn (log 3). -/
def State.drawAcq (s : State) (n : Nat) : State :=
  { s with freeAcq := s.freeAcq + n }

/-- `n` generation-side free values have been drawn (log 4, log 5). -/
def State.drawGen (s : State) (n : Nat) : State :=
  { s with freeGen := s.freeGen + n }

/-! ### The gates -/

/-- An event that comes from outside the CORE: in `RUN` it has its effect, in `HALT` it is accepted, changes nothing and
produces no output record (R215, R237). -/
def State.external (s : State) (effect : State → State) : Host.Outcome State Fault Refusal :=
  .next (match s.runst with
    | .run => effect s
    | .halt => s.silent)

/-- A step of the engine: taken only where it is enabled, else the trace is refused (R215, R241). In `HALT` it is not
enabled. -/
def State.engine (s : State) (mnemonic : String) (enabled : Bool)
    (effect : State → Host.Outcome State Fault Refusal) : Host.Outcome State Fault Refusal :=
  match s.runst, enabled with
  | .run, true => effect s
  | .run, false => .refused (.notEnabled mnemonic)
  | .halt, _ => .refused (.notEnabled mnemonic)

/-! ### Entry into HALT, and the reset -/

/-- `halt <Cause>(w)` (R236), the CORE's only trap: `RUNST`, `CAUSE` and `INFO` are written, nothing else is saved and
nothing else changes; the output record is the diagnostic. -/
def State.takeHalt (s : State) (c : Cause) (w : EventWord) : State :=
  (s.withRun .halt c w).withOutput (.diagnostic c w)

/-- `RST` (R260), the only way out of `HALT` (R238): every state element takes its reset value, the buffer memories
become unspecified, the parameters are unchanged. The events still to come stay, and the counters of free values run
on, so that what is unspecified after the reset is not what was unspecified before it (log 7). -/
def State.restart (s : State) : State :=
  { State.reset with
    config := s.config
    port := s.port
    freeAcq := s.freeAcq
    freeGen := s.freeGen
    freeTurn := s.freeTurn }

/-! ### The event port -/

/-- The engine event of the acquisition stream that is enabled, if one is (R215): never both. -/
def ownAcq (s : State) : Option Instr :=
  match s.runst with
  | .halt => none
  | .run => if s.acq.busy then some .acqEnd else if s.acq.pend then some .acqBegin else none

/-- The engine event of the generation stream that is enabled, if one is (R215). -/
def ownGen (s : State) : Option Instr :=
  match s.runst with
  | .halt => none
  | .run => if s.gen.busy then some .genEnd else if s.gen.pend then some .genBegin else none

/-- What happens where nothing is presented: an engine event that stays enabled is eventually taken (R220), so the engine
takes an enabled one; which of two streams goes first is open (R216, R218) and a free turn (log 23); where none is enabled
the CORE idles (R211, R247). -/
def ownEvent (s : State) : Instr × State :=
  match ownAcq s, ownGen s with
  | none, none => (.idle, s)
  | some a, none => (a, s)
  | none, some g => (g, s)
  | some a, some g => (if Config.freeTurn s.freeTurn then a else g, s.withTurn (s.freeTurn + 1))

/-- The next event and the state without it: the first on the port, or, where nothing is presented, the CORE's own
(log 1, log 23). -/
def nextEvent (s : State) : PortEvent × State :=
  match s.port with
  | [] => (encode (ownEvent s).1, (ownEvent s).2)
  | e :: rest => (e, s.withPort rest)

/-- `s` with the event whose bits are `w` standing first on the port. -/
def presentBits (s : State) (nbits w : Nat) : State :=
  s.withPort (portEventOfBits nbits w :: s.port)

end Sys2Proof.Machine
end

