-- ==== Sys2Proof/Machine/Debounce.lean ====
section
/-! DEFINITION. The Debounce Classifier: the micro-operation `deb_tick` and the event `TICK` (43_debounce.md). -/

namespace Sys2Proof.Machine

/-- `deb_tick(level)` (R193), row by row: the new counter and the event. -/
def debTick (c : Config) (level : Bool) (t : Nat) : Nat × DebEvent :=
  match level with
  | true =>
    if t < c.tLong then (t + 1, .none)
    else if t = c.tLong then (t + 1, .long)
    else (t, .none)
  | false =>
    if c.tLong < t then (c.tShort / 2, .none)
    else if c.tShort ≤ t then (c.tShort / 2, .short)
    else if 0 < t then (t - 1, .none)
    else (t, .none)

/-- `FIR_MODE` after a debounce event: `Short` advances it (R195). -/
def firModeAfter (ev : DebEvent) (m : Fin nbFir) : Fin nbFir :=
  match ev with
  | .short => nextBank nbFir m
  | .none => m
  | .long => m

/-- `IIR_MODE` after a debounce event: `Long` advances it (R195). -/
def iirModeAfter (ev : DebEvent) (m : Fin nbIir) : Fin nbIir :=
  match ev with
  | .long => nextBank nbIir m
  | .none => m
  | .short => m

/-- `TICK level` in state `RUN` (R194). -/
def tickEffect (level : Bool) (s : State) : State :=
  let r := debTick s.config level s.t
  (s.withDebounce r.1 (firModeAfter r.2 s.firMode) (iirModeAfter r.2 s.iirMode)).withOutput (.debounce r.2)

/-- `TICK level` (R194). -/
def execTick (level : Bool) (s : State) : Host.Outcome State Fault Refusal :=
  s.external (tickEffect level)

end Sys2Proof.Machine
end

