-- ==== Sys2Proof/Machine/Exchange.lean ====
section
/-! DEFINITION. The six events of the Double-Buffer Exchange (40_double_buffer.md). -/

namespace Sys2Proof.Machine

/-- `ACQ.DONE` in state `RUN` (R121). -/
def acqDoneEffect (data : List Sample) (s : State) : State :=
  ((s.withAcqBuf (Memory.write s.acqBuf (acqBase s.acq.ct) data)).withAcq s.acq.complete).silent

/-- `ACQ.DONE` (R121). A payload that is not 16 samples cannot be presented (R95) and is refused. -/
def execAcqDone (data : List Sample) (s : State) : Host.Outcome State Fault Refusal :=
  if data.length = nAcq then s.external (acqDoneEffect data) else .refused .badPayload

/-- `ACQ.BEGIN` where it is enabled (R123). -/
def acqBeginEffect (s : State) : State :=
  ((s.withLatched s.firMode s.iirMode).withAcq s.acq.accept).silent

/-- `ACQ.BEGIN` (R123). -/
def execAcqBegin (s : State) : Host.Outcome State Fault Refusal :=
  s.engine "ACQ.BEGIN" s.acq.canBegin (fun s => .next (acqBeginEffect s))

/-- `ACQ.ERR` in state `RUN` (R124). -/
def acqErrEffect (s : State) : State :=
  (s.withAcq s.acq.rearm).silent

/-- `ACQ.ERR` (R124). -/
def execAcqErr (s : State) : Host.Outcome State Fault Refusal :=
  s.external acqErrEffect

/-- The samples that left the CORE during the interval that ends now: the adapter's buffer (R64, R125 step 1). -/
def emission (s : State) : List GenSample :=
  Memory.read Config.freeOutput s.genBuf (genBase s.gen.ct) nGen s.freeGen

/-- `GEN.DONE` in state `RUN` (R125). -/
def genDoneEffect (s : State) : State :=
  ((s.withGen s.gen.complete).drawGen nGen).withOutput (.emit (emission s))

/-- `GEN.DONE` (R125). -/
def execGenDone (s : State) : Host.Outcome State Fault Refusal :=
  s.external genDoneEffect

/-- `GEN.BEGIN` where it is enabled (R126). -/
def genBeginEffect (s : State) : State :=
  (s.withGen s.gen.accept).silent

/-- `GEN.BEGIN` (R126). -/
def execGenBegin (s : State) : Host.Outcome State Fault Refusal :=
  s.engine "GEN.BEGIN" s.gen.canBegin (fun s => .next (genBeginEffect s))

/-- `GEN.ERR` in state `RUN` (R127). -/
def genErrEffect (s : State) : State :=
  (s.withGen s.gen.rearm).silent

/-- `GEN.ERR` (R127). -/
def execGenErr (s : State) : Host.Outcome State Fault Refusal :=
  s.external genErrEffect

end Sys2Proof.Machine
end

