-- ==== Sys2Proof/Machine/Filter.lean ====
section
/-! DEFINITION. The Fixed-Point Filter Engine: the micro-operations `smacc`, `fir_apply`, `iir_update`, and the event
`ACQ.END` (41_filter_engine.md). -/

namespace Sys2Proof.Machine

/-- The accumulation of `smacc`: the value it starts from and every partial sum, in index order, must lie in the signed
32-bit range (R141, R143). -/
def accumulate (acc : Int) (x a : List Sample) : Except Fault Int :=
  if inAccumulator acc then
    match x, a with
    | x0 :: xs, a0 :: as => accumulate (acc + x0.toInt * a0.toInt) xs as
    | _, _ => .ok acc
  else .error .accRange
termination_by structural x

/-- `smacc(y0, x, a, s)` (R141). -/
def smacc (y0 : Sample) (x a : List Sample) (s : ShiftField) : Except Fault Sample :=
  (accumulate (lsl y0.toInt s.toNat) x a).map (fun sum => narrow (asr sum s.toNat))

/-- The computation of `fir_apply` with the record `r` (R146, R147). -/
def firWith (r : FirRecord) (buf : List Sample) : Except Fault Sample :=
  smacc r.offset buf r.taps.toList r.shift

/-- `fir_apply(buf, m, ch)` (R146). -/
def firApply (c : Config) (buf : List Sample) (m : Fin nbFir) (ch : Channel) : Except Fault Sample :=
  firWith (c.firBank m ch) buf

/-- Steps 1 and 2 of `iir_update`: shift the history right by one and insert the input at the head (R150, R152). -/
def History.insert (h : History) (x0 : Sample) : History :=
  { h0 := x0, h1 := h.h0, h2 := h.h1, h3 := h.h2, h4 := h.h3 }

/-- The slots of a history in index order. -/
def History.slots (h : History) : List Sample :=
  [h.h0, h.h1, h.h2, h.h3, h.h4]

/-- The computation of `iir_update` with the record `r` on the history `h` (R150): the new history and the output. -/
def iirWith (r : IirRecord) (h : History) (x0 : Sample) : Except Fault (History × Sample) :=
  (smacc 0 (h.insert x0).slots r.coefficients r.shift).map
    (fun y0 => ({ h.insert x0 with h2 := y0 }, y0))

/-- `iir_update(ch, k, x0, m)` on the history it selects (R150, R154). -/
def iirUpdate (c : Config) (h : History) (x0 : Sample) (m : Fin nbIir) : Except Fault (History × Sample) :=
  iirWith (c.iirBank m) h x0

/-- The cascade of channel `ch` (R155): FIR, section 0, section 1. -/
def runCascade (c : Config) (x : List Sample) (f : Fin nbFir) (i : Fin nbIir) (ch : Channel) (k : Cascade) :
    Except Fault (Cascade × Sample) := do
  let fir ← firApply c x f ch
  let (sec0, g) ← iirUpdate c k.sec0 fir i
  let (sec1, y) ← iirUpdate c k.sec1 g i
  return ({ sec0 := sec0, sec1 := sec1 }, y)

/-- Both channels, channel 0 first (R156 step 2): the new history file and the two outputs. -/
def runFilter (c : Config) (x : List Sample) (f : Fin nbFir) (i : Fin nbIir) (file : IirFile) :
    Except Fault (IirFile × Sample × Sample) := do
  let (ch0, y0) ← runCascade c x f i 0 file.ch0
  let (ch1, y1) ← runCascade c x f i 1 file.ch1
  return ({ ch0 := ch0, ch1 := ch1 }, y0, y1)

/-- The samples the service reads (R156 step 1): those of buffer `CUR_A`, or, when the read is torn, free values
(R157). -/
def serviceSamples (s : State) : List Sample :=
  if s.acq.torn then Memory.freeValues Config.freeSample nAcq s.freeAcq
  else Memory.read Config.freeSample s.acqBuf (acqBase s.acq.cur) nAcq s.freeAcq

/-- `ACQ.END` where it is enabled (R156). -/
def acqEndEffect (s : State) : Host.Outcome State Fault Refusal :=
  match runFilter s.config (serviceSamples s) s.lmf s.lmi s.iirs with
  | .error f => .fault f
  | .ok (file, y0, y1) =>
    .next ((((s.withFiltered file y0 y1).withAcq s.acq.finish).drawAcq nAcq).withOutput (.strobe y0 y1))

/-- `ACQ.END` (R156). -/
def execAcqEnd (s : State) : Host.Outcome State Fault Refusal :=
  s.engine "ACQ.END" s.acq.busy acqEndEffect

end Sys2Proof.Machine
end

