-- ==== Sys2Proof/Machine/NoiseShaper.lean ====
section
/-! DEFINITION. The Noise-Shaping Modulator: the micro-operations `prbs_step` and `mod_step`, and the event `GEN.END`
(42_modulator.md). -/

namespace Sys2Proof.Machine

/-- The feedback bit of the pseudo-random register, which is the dither bit (R171). -/
def prbsBit (l : BitVec 16) : Bool :=
  (l.getLsbD 15 ^^ l.getLsbD 14) ^^ (l.getLsbD 12 ^^ l.getLsbD 3)

/-- The register after `prbs_step` (R171): shifted left by one, the feedback bit entering at bit 0. -/
def prbsNext (l : BitVec 16) : BitVec 16 :=
  l.extractLsb' 0 15 ++ BitVec.ofBool (prbsBit l)

/-- The sum of stage 1 (R174 step 3): the accumulator, the low bits and the dither bit. -/
def stage1Sum (mag : Magnitude) (m : Modulator) : Nat :=
  m.acc0.toNat + (magLow mag).toNat + (prbsBit m.lfsr).toNat

/-- The sum of stage 2 (R174 step 4), which adds the new `ACC[0]`. -/
def stage2Sum (mag : Magnitude) (m : Modulator) : Nat :=
  m.acc1.toNat + (BitVec.ofNat 16 (stage1Sum mag m)).toNat

/-- The sum of stage 3 (R174 step 5), which adds the new `ACC[1]`. -/
def stage3Sum (mag : Magnitude) (m : Modulator) : Nat :=
  m.acc2.toNat + (BitVec.ofNat 16 (stage2Sum mag m)).toNat

/-- `e2`, the stage-2 carry plus the difference of the stage-3 carry (R174 steps 6 and 7). -/
def carryDifference (mag : Magnitude) (m : Modulator) : Int :=
  (carryBit (stage2Sum mag m) : Int) + ((carryBit (stage3Sum mag m) : Int) - (m.dc0.toNat : Int))

/-- `corr`, the correction term (R174 step 8). -/
def correction (mag : Magnitude) (m : Modulator) : Int :=
  (carryBit (stage1Sum mag m) : Int) + (carryDifference mag m - m.dc1.toInt)

/-- The modulator's registers after `mod_step` (R174). -/
def modNext (mag : Magnitude) (m : Modulator) : Modulator :=
  { lfsr := prbsNext m.lfsr
    acc0 := BitVec.ofNat 16 (stage1Sum mag m)
    acc1 := BitVec.ofNat 16 (stage2Sum mag m)
    acc2 := BitVec.ofNat 16 (stage3Sum mag m)
    dc0 := BitVec.ofNat 1 (carryBit (stage3Sum mag m))
    dc1 := BitVec.ofInt 3 (carryDifference mag m) }

/-- `mod_step(mag)` (R174): the new registers and the output sample, or `ModRange` (R176). -/
def modStep (mag : Magnitude) (m : Modulator) : Except Fault (Modulator × GenSample) :=
  let y : Int := ((magHigh mag).toNat : Int) + correction mag m
  if y < 0 ∨ 255 < y then .error .modRange
  else .ok (modNext mag m, BitVec.ofInt 8 y)

/-- `n` modulation steps with one magnitude (R178 step 2): the registers after them and the samples in order. -/
def modRun (n : Nat) (mag : Magnitude) (m : Modulator) : Except Fault (Modulator × List GenSample) :=
  match n with
  | 0 => .ok (m, [])
  | n + 1 => do
    let (m1, y) ← modStep mag m
    let (m2, ys) ← modRun n mag m1
    return (m2, y :: ys)

/-- `GEN_BUF` after the service has written the samples `v` (R178 step 3), torn or not (R179). -/
def serviceWrite (s : State) (v : List GenSample) : Cells 8 :=
  if s.gen.torn then Memory.tornWrite Config.freeChoice s.genBuf (genBase s.gen.cur) v s.freeGen
  else Memory.write s.genBuf (genBase s.gen.cur) v

/-- `GEN.END` where it is enabled (R178). -/
def genEndEffect (s : State) : Host.Outcome State Fault Refusal :=
  match modRun nGen (s.config.table s.tidx) s.modu with
  | .error f => .fault f
  | .ok (m, v) =>
    .next ((((((s.withModulator m).withGenBuf (serviceWrite s v)).withTidx (nextBank nTab s.tidx)).withGen s.gen.finish).drawGen nGen).silent)

/-- `GEN.END` (R178). -/
def execGenEnd (s : State) : Host.Outcome State Fault Refusal :=
  s.engine "GEN.END" s.gen.busy genEndEffect

end Sys2Proof.Machine
end

