-- ==== Sys2Proof/Machine/System.lean ====
section
/-! DEFINITION. The events that belong to no component: `IDLE`, `CFGF`, a reserved word (44_dispatch.md), and `RST`
(70_reset_and_hazards.md). -/

namespace Sys2Proof.Machine

/-- `IDLE` (R211): enabled always, changes no state element, no output. -/
def execIdle (s : State) : Host.Outcome State Fault Refusal :=
  .next s.silent

/-- `CFGF` (R213): `halt ConfigurationFault(0xA0)`; ignored in `HALT` (R237). -/
def execCfgf (s : State) : Host.Outcome State Fault Refusal :=
  s.external (fun s => s.takeHalt .configurationFault 0xA0)

/-- `RST` (R260): enabled always, in `RUN` and in `HALT`. -/
def execRst (s : State) : Host.Outcome State Fault Refusal :=
  .next s.restart

/-- A reserved word `w` (R214): `halt UnexpectedInterrupt(w)`; ignored in `HALT` (R237). -/
def takeReserved (w : EventWord) (s : State) : Host.Outcome State Fault Refusal :=
  s.external (fun s => s.takeHalt .unexpectedInterrupt w)

/-- What the CORE does with what is no event of the table: a reserved word is an unexpected interrupt (R94); a payload
that cannot be presented is refused (R95). -/
def takeRejected (r : Reject) (s : State) : Host.Outcome State Fault Refusal :=
  match r with
  | .reserved w => takeReserved w s
  | .badPayload => .refused .badPayload

end Sys2Proof.Machine
end

