-- ==== Sys2Proof/Machine/Dispatch.lean ====
section
/-! DEFINITION. The Interrupt Dispatch (44_dispatch.md R210): the fixed mapping from event to meaning. -/

namespace Sys2Proof.Machine

def exec (i : Instr) (s : State) : Host.Outcome State Fault Refusal :=
  match i with
  | .idle => Sys2Proof.Machine.execIdle s
  | .acqDone data => Sys2Proof.Machine.execAcqDone data s
  | .acqBegin => Sys2Proof.Machine.execAcqBegin s
  | .acqEnd => Sys2Proof.Machine.execAcqEnd s
  | .acqErr => Sys2Proof.Machine.execAcqErr s
  | .genDone => Sys2Proof.Machine.execGenDone s
  | .genBegin => Sys2Proof.Machine.execGenBegin s
  | .genEnd => Sys2Proof.Machine.execGenEnd s
  | .genErr => Sys2Proof.Machine.execGenErr s
  | .tick level => Sys2Proof.Machine.execTick level s
  | .cfgf => Sys2Proof.Machine.execCfgf s
  | .rst => Sys2Proof.Machine.execRst s

end Sys2Proof.Machine
end

