-- ==== Sys2Proof/Machine/Apply.lean ====
section
/-! DEFINITION. What one event does to the CORE, whoever presents it (00_scope.md R15, 30_encoding.md R90). -/

namespace Sys2Proof.Machine

/-- Apply what stands on the ports: an event of the table has its meaning, a reserved word or an impossible payload is
dealt with as `takeRejected` says (R94, R95). -/
def applyEvent (e : PortEvent) (s : State) : Host.Outcome State Fault Refusal :=
  match decode e with
  | .ok i => exec i s
  | .error r => takeRejected r s

end Sys2Proof.Machine
end

