-- ==== Sys2Proof/Machine/Step.lean ====
section
/-! DEFINITION. One step of the CORE: the next event, the first on the port or the engine's own, is applied to the state (R15, R90,
R220). -/

namespace Sys2Proof.Machine

/-- Take the next event, decode it, and run it. -/
def step (s : State) : Host.Outcome State Fault Refusal :=
  applyEvent (nextEvent s).1 (nextEvent s).2

/-- `s` with the event whose bits are `w` presented next on the event port, so that `step` runs it. -/
def State.withFetchWord (s : State) (nbits w : Nat) : State :=
  presentBits s nbits w

end Sys2Proof.Machine
end

