-- ==== Sys2Proof/Machine/Runs.lean ====
section
/-! DEFINITION. When an event can occur (44_dispatch.md R215), what an infinite run is (00_scope.md R15), and the weak fairness of the
engine (R220, decision D39). -/

namespace Sys2Proof.Machine

/-- The four engine events, the CORE's own steps (R215). -/
def IsEngine (i : Instr) : Prop :=
  i = .acqBegin ∨ i = .acqEnd ∨ i = .genBegin ∨ i = .genEnd

/-- The enabling conditions, all of them (R215). -/
def Enabled (i : Instr) (s : State) : Prop :=
  match i with
  | .idle => True
  | .acqDone _ => True
  | .acqBegin => s.runst = .run ∧ s.acq.pend = true ∧ s.acq.busy = false
  | .acqEnd => s.runst = .run ∧ s.acq.busy = true
  | .acqErr => True
  | .genDone => True
  | .genBegin => s.runst = .run ∧ s.gen.pend = true ∧ s.gen.busy = false
  | .genEnd => s.runst = .run ∧ s.gen.busy = true
  | .genErr => True
  | .tick _ => True
  | .cfgf => True
  | .rst => True

/-- An infinite run (R15): event `ev n` is applied to state `σ n` and leaves state `σ (n + 1)`. -/
def IsRun (ev : Nat → PortEvent) (σ : Nat → State) : Prop :=
  ∀ n, applyEvent (ev n) (σ n) = .next (σ (n + 1))

/-- Weak fairness (R220, D39): an engine event that stays enabled is eventually taken. -/
def WeaklyFair (ev : Nat → PortEvent) (σ : Nat → State) : Prop :=
  ∀ i, IsEngine i → ∀ n, (∀ m ≥ n, Enabled i (σ m)) → ∃ m ≥ n, decode (ev m) = .ok i

/-- An infinite run of the machine by its own step. -/
def IsStepRun (σ : Nat → State) : Prop :=
  ∀ n, step (σ n) = .next (σ (n + 1))

/-- The event that step `n` of such a run takes. -/
def takenEvents (σ : Nat → State) (n : Nat) : PortEvent :=
  (nextEvent (σ n)).1

/-- `n` steps, stopping at the first that has no next state. -/
def runSteps (n : Nat) (s : State) : Host.Outcome State Fault Refusal :=
  match n with
  | 0 => .next s
  | n + 1 =>
    match step s with
    | .next t => runSteps n t
    | .fault f => .fault f
    | .refused r => .refused r

end Sys2Proof.Machine
end

