-- ==== Sys2Proof/Machine/Trace.lean ====
section
/-! DEFINITION. The trace syntax (30_encoding.md R98), the pseudo-events (R99), and the run of a trace (R15). What the text of
R98 and R99 leaves open (blanks around operands, the number of hexadecimal digits, how a count is written) is log 19. -/

namespace Sys2Proof

/-! ### Pseudo-events -/

/-- `ACQ.SVC`: a service of the acquisition stream that nothing interrupts (R99). -/
def acqService : List Instr := [.acqBegin, .acqEnd]

/-- `GEN.SVC` (R99). -/
def genService : List Instr := [.genBegin, .genEnd]

/-- `ACQ.FRAME data`: one complete, timely acquisition frame (R99). -/
def acqFrame (data : List Sample) : List Instr := .acqDone data :: acqService

/-- `GEN.FRAME`: one complete, timely generation frame (R99). -/
def genFrame : List Instr := .genDone :: genService

/-- `PRESS n` (R99). -/
def press (n : Nat) : List Instr := List.replicate n (.tick true)

/-- `RELEASE n` (R99). -/
def release (n : Nat) : List Instr := List.replicate n (.tick false)

/-! ### Reading a line -/

/-- White space inside a line. -/
def isBlank (c : Char) : Bool := c == ' ' || c == '\t' || c == '\r'

/-- What stands before the semicolon that starts a comment (R98). -/
def beforeComment (cs : List Char) : List Char := cs.takeWhile (fun c => c != ';')

/-- Blanks at both ends removed. -/
def trimBlanks (cs : List Char) : List Char :=
  ((cs.dropWhile isBlank).reverse.dropWhile isBlank).reverse

/-- The parts between the separators. -/
def splitAtChar (sep : Char) (cs : List Char) : List (List Char) :=
  match cs with
  | [] => [[]]
  | c :: rest =>
    if c == sep then [] :: splitAtChar sep rest
    else
      match splitAtChar sep rest with
      | [] => [[c]]
      | part :: parts => (c :: part) :: parts

/-- The value of a decimal digit. -/
def decimalDigit (c : Char) : Option Nat :=
  if 48 ≤ c.toNat ∧ c.toNat ≤ 57 then some (c.toNat - 48) else none

/-- The value of a hexadecimal digit. -/
def hexDigit (c : Char) : Option Nat :=
  if 48 ≤ c.toNat ∧ c.toNat ≤ 57 then some (c.toNat - 48)
  else if 65 ≤ c.toNat ∧ c.toNat ≤ 70 then some (c.toNat - 55)
  else if 97 ≤ c.toNat ∧ c.toNat ≤ 102 then some (c.toNat - 87)
  else none

/-- The number that the digits continue from `acc`. -/
def digitsFrom (base : Nat) (digit : Char → Option Nat) (acc : Nat) (cs : List Char) : Option Nat :=
  match cs with
  | [] => some acc
  | c :: rest =>
    match digit c with
    | some d => digitsFrom base digit (acc * base + d) rest
    | none => none

/-- An unsigned decimal number of at least one digit. -/
def readDecimal (cs : List Char) : Option Nat :=
  if cs = [] then none else digitsFrom 10 decimalDigit 0 cs

/-- A sample operand: a decimal integer in -32768..32767, or a hexadecimal 16-bit pattern (R98). -/
def readSample (cs : List Char) : Option Sample :=
  match cs with
  | '0' :: 'x' :: digits =>
    if digits.length = 4 then (digitsFrom 16 hexDigit 0 digits).map (BitVec.ofNat 16) else none
  | '-' :: digits =>
    match readDecimal digits with
    | some n => if n ≤ 32768 then some (BitVec.ofInt 16 (-(n : Int))) else none
    | none => none
  | digits =>
    match readDecimal digits with
    | some n => if n ≤ 32767 then some (BitVec.ofNat 16 n) else none
    | none => none

/-- All sample operands of a line. -/
def readSamples (parts : List (List Char)) : Option (List Sample) :=
  match parts with
  | [] => some []
  | part :: rest =>
    match readSample part, readSamples rest with
    | some v, some vs => some (v :: vs)
    | _, _ => none

/-- The 16 operands of `ACQ.DONE` and `ACQ.FRAME` (R98). -/
def readPayload (parts : List (List Char)) : Option (List Sample) :=
  match readSamples parts with
  | some vs => if vs.length = nAcq then some vs else none
  | none => none

/-- The events of a line, given its mnemonic and its operands (R98, R99). The count of `PRESS` and `RELEASE` is an unsigned
decimal number, 0 included and then no event (DESIGN CHOICE, log 19). -/
def lineEvents (mnemonic : String) (operands : List (List Char)) : Option (List Instr) :=
  if mnemonic = "ACQ.DONE" then (readPayload operands).map (fun d => [.acqDone d])
  else if mnemonic = "ACQ.FRAME" then (readPayload operands).map acqFrame
  else
    match operands with
    | [] =>
      if mnemonic = "IDLE" then some [.idle]
      else if mnemonic = "ACQ.BEGIN" then some [.acqBegin]
      else if mnemonic = "ACQ.END" then some [.acqEnd]
      else if mnemonic = "ACQ.ERR" then some [.acqErr]
      else if mnemonic = "GEN.DONE" then some [.genDone]
      else if mnemonic = "GEN.BEGIN" then some [.genBegin]
      else if mnemonic = "GEN.END" then some [.genEnd]
      else if mnemonic = "GEN.ERR" then some [.genErr]
      else if mnemonic = "CFGF" then some [.cfgf]
      else if mnemonic = "RST" then some [.rst]
      else if mnemonic = "ACQ.SVC" then some acqService
      else if mnemonic = "GEN.SVC" then some genService
      else if mnemonic = "GEN.FRAME" then some genFrame
      else none
    | [operand] =>
      if mnemonic = "TICK" then
        (if operand = ['1'] then some [.tick true] else if operand = ['0'] then some [.tick false] else none)
      else if mnemonic = "PRESS" then (readDecimal operand).map press
      else if mnemonic = "RELEASE" then (readDecimal operand).map release
      else none
    | _ :: _ :: _ => none

/-- The events of one line of trace text; a blank line has none; `none` where the line is no line of R98 or R99. A reserved word
has no line (DESIGN CHOICE, log 24). -/
def readLine (cs : List Char) : Option (List Instr) :=
  let line := trimBlanks (beforeComment cs)
  let operands := trimBlanks (line.dropWhile (fun c => !isBlank c))
  if line = [] then some []
  else lineEvents (String.ofList (line.takeWhile (fun c => !isBlank c)))
    (if operands = [] then [] else (splitAtChar ',' operands).map trimBlanks)

/-- The events of the lines of a trace, first line first (R98). -/
def readLines (lines : List (List Char)) : Option (List Instr) :=
  match lines with
  | [] => some []
  | line :: rest =>
    match readLine line, readLines rest with
    | some is, some js => some (is ++ js)
    | _, _ => none

/-- The events of a trace text (R98, R99). -/
def readTrace (text : String) : Option (List Instr) :=
  readLines (splitAtChar '\n' text.toList)

namespace Machine

/-- `s` with the events of a trace presented on the port, in order (R98). -/
def State.presenting (s : State) (tr : List Instr) : State :=
  s.withPort (tr.map encode)

/-- Apply the events of a list one after the other, stopping at the first that has no next state (R15). -/
def runEvents (tr : List Instr) (s : State) : Host.Outcome State Fault Refusal :=
  match tr with
  | [] => .next s
  | i :: rest =>
    match exec i s with
    | .next t => runEvents rest t
    | .fault f => .fault f
    | .refused r => .refused r

end Machine

end Sys2Proof
end

