-- ==== Sys2Proof/Safety.lean ====
section
/-! DEFINITION. What the claims call a good state and a good outcome, the parts of the state each source owns, and the
document's formulas on exact integers, which the claims compare the filter engine with. -/

namespace Sys2Proof.Machine

/-- A stream's invariants (R35): a torn service is in progress and was reported as a drop; a service that is not torn
works on the buffer the adapter does not own. -/
abbrev Exchange.Inv (x : Exchange) : Prop :=
  (x.torn = true → x.busy = true ∧ x.drop = true) ∧
  (x.busy = true → x.torn = false → x.cur = ~~~x.ct)

/-- The modulator's invariants (R35). -/
abbrev Modulator.Inv (m : Modulator) : Prop :=
  m.lfsr ≠ 0 ∧ -1 ≤ m.dc1.toInt ∧ m.dc1.toInt ≤ 2

/-- The invariants of R35 that the types do not already state, with the canonical form of the two memories. -/
structure State.Inv (s : State) : Prop where
  acqInv : s.acq.Inv
  genInv : s.gen.Inv
  modInv : s.modu.Inv
  tBound : s.t ≤ s.config.tLong + 1
  haltCause : s.cause ≠ .none ↔ s.runst = .halt
  acqWf : Memory.wf 32 s.acqBuf
  genWf : Memory.wf 512 s.genBuf

/-- Every element of buffer `b` of `ACQ_BUF` has been written since reset. -/
abbrev State.AcqWritten (s : State) (b : BitVec 1) : Prop :=
  ∀ i < nAcq, (Memory.read? s.acqBuf (acqBase b + i)).isSome = true

/-- The engine never reads an acquisition sample that nothing has written (R63): the buffer of a pending completion, and
the buffer of a service that is not torn, are written. -/
structure State.AcqReady (s : State) : Prop where
  pendWritten : s.acq.pend = true → s.AcqWritten (~~~s.acq.ct)
  busyWritten : s.acq.busy = true → s.acq.torn = false → s.AcqWritten s.acq.cur

/-- An outcome that is no model-level fault (R240). -/
def NoFault (o : Host.Outcome State Fault Refusal) : Prop :=
  ∀ f, o ≠ .fault f

/-- The part of the state the acquisition events own (R34): SE1 to SE10 and `ACQ_BUF`, with the model's counter. -/
def State.SameAcquisition (s t : State) : Prop :=
  t.acq = s.acq ∧ t.lmf = s.lmf ∧ t.lmi = s.lmi ∧ t.iirs = s.iirs ∧ t.out0 = s.out0 ∧ t.out1 = s.out1 ∧
  t.acqBuf = s.acqBuf ∧ t.freeAcq = s.freeAcq

/-- The part the generation events own (R34): SE11 to SE19, SE26 and `GEN_BUF`, with the model's counter. -/
def State.SameGeneration (s t : State) : Prop :=
  t.gen = s.gen ∧ t.modu = s.modu ∧ t.tidx = s.tidx ∧ t.genBuf = s.genBuf ∧ t.freeGen = s.freeGen

/-- The part `TICK` owns (R34): SE20 to SE22. -/
def State.SameDebounce (s t : State) : Prop :=
  t.t = s.t ∧ t.firMode = s.firMode ∧ t.iirMode = s.iirMode

/-- The part the halting events own (R34): SE23 to SE25. -/
def State.SameRun (s t : State) : Prop :=
  t.runst = s.runst ∧ t.cause = s.cause ∧ t.info = s.info

/-- The events of the acquisition stream (R34). -/
def IsAcquisition (i : Instr) : Prop :=
  (∃ data, i = .acqDone data) ∨ i = .acqBegin ∨ i = .acqEnd ∨ i = .acqErr

/-- The events of the generation stream (R34). -/
def IsGeneration (i : Instr) : Prop :=
  i = .genDone ∨ i = .genBegin ∨ i = .genEnd ∨ i = .genErr

/-- `dot(x, a)` (R11): the exact sum of the products, index by index. -/
def dot (x a : List Sample) : Int :=
  ((x.zip a).map (fun p => p.1.toInt * p.2.toInt)).sum

/-- The sum of the first `k` products of `dot(x, a)`. -/
def partialDot (x a : List Sample) (k : Nat) : Int :=
  (((x.zip a).take k).map (fun p => p.1.toInt * p.2.toInt)).sum

/-- The document's formula for the saturating multiply-accumulate (R141), on exact integers. -/
def maccFormula (y0 : Sample) (x a : List Sample) (s : ShiftField) : Sample :=
  narrow (asr (lsl y0.toInt s.toNat + dot x a) s.toNat)

/-- What a section's update leaves and answers by the formula (R150). -/
def sectionFormula (r : IirRecord) (h : History) (x0 : Sample) : History × Sample :=
  let y0 := maccFormula 0 [x0, h.h0, h.h1, h.h2, h.h3] [r.c0, r.c1, r.c2, r.c3, r.c4] r.shift
  (⟨x0, h.h0, y0, h.h2, h.h3⟩, y0)

/-- What a channel's cascade leaves and answers by the formulas (R155). -/
def channelFormula (fir : FirRecord) (iir : IirRecord) (x : List Sample) (k : Cascade) : Cascade × Sample :=
  let f := maccFormula fir.offset x fir.taps.toList fir.shift
  let a := sectionFormula iir k.sec0 f
  let b := sectionFormula iir k.sec1 a.2
  (⟨a.1, b.1⟩, b.2)

/-- `n` modulation steps in order (R178 step 2): `r k` are the registers after `k` steps, and sample `k` of `v` is the output
of the step from `r k`. -/
def StepsInOrder (mag : Magnitude) (r : Nat → Modulator) (v : List GenSample) (n : Nat) : Prop :=
  v.length = n ∧ ∀ k < n, ∃ y, modStep mag (r k) = .ok (r (k + 1), y) ∧ v[k]? = some y

/-- The cascade of channel `ch` on the samples `x`, by the micro-operations (R155, R156 step 2): from the histories `k` the FIR
stage and the two sections raise nothing, and leave `k'` and the output `y`. -/
def CascadeRuns (c : Config) (x : List Sample) (f : Fin nbFir) (i : Fin nbIir) (ch : Channel) (k k' : Cascade) (y : Sample) :
    Prop :=
  ∃ v g, firApply c x f ch = .ok v ∧ iirUpdate c k.sec0 v i = .ok (k'.sec0, g) ∧ iirUpdate c k.sec1 g i = .ok (k'.sec1, y)

/-- The updates of one section for a sequence of inputs, oldest first (R151): the history after them and the outputs. -/
def iirRun (r : IirRecord) (h : History) (xs : List Sample) : Except Fault (History × List Sample) :=
  match xs with
  | [] => .ok (h, [])
  | x :: rest =>
    match iirWith r h x with
    | .error f => .error f
    | .ok (h1, y) =>
      match iirRun r h1 rest with
      | .error f => .error f
      | .ok (h2, ys) => .ok (h2, y :: ys)

/-- The element `k` places before element `n` of a sequence, 0 before its beginning (R151). -/
def before (xs : List Sample) (n k : Nat) : Sample :=
  if k ≤ n then xs.getD (n - k) 0 else 0

end Sys2Proof.Machine
end

