-- ==== Sys2Proof/Certificates/Slice0/Obligations.lean ====
section
/-! DEFINITION. The statements for the provers, each about the rules of spec/ its docstring names.

In every frame the field `output` is the output record of R96 (that State keeps the latest one is log 2), and the counters
`freeAcq`, `freeGen` and `freeTurn`, where they are named, are the model's own (log 3 to 5, log 23): nothing is claimed of their values. A trace
that R215 refuses is the outcome `.refused` (R241). -/

open Sys2Proof Sys2Proof.Machine

/-! ### Encoding -/

/-- R92: an event word selects the row whose `(w & mask) = match`, and decodes to that row's event. -/
def Obligations.LegalWordsDecodeToTheirEvents : Prop :=
  ∀ (w : EventWord) (data : List Sample), data.length = 16 →
    (w &&& 0xFF = 0x00 → decode ⟨w, data⟩ = .ok .idle) ∧
    (w &&& 0xFF = 0x10 → decode ⟨w, data⟩ = .ok (.acqDone data)) ∧
    (w &&& 0xFF = 0x20 → decode ⟨w, data⟩ = .ok .acqBegin) ∧
    (w &&& 0xFF = 0x30 → decode ⟨w, data⟩ = .ok .acqEnd) ∧
    (w &&& 0xFF = 0x40 → decode ⟨w, data⟩ = .ok .acqErr) ∧
    (w &&& 0xFF = 0x50 → decode ⟨w, data⟩ = .ok .genDone) ∧
    (w &&& 0xFF = 0x60 → decode ⟨w, data⟩ = .ok .genBegin) ∧
    (w &&& 0xFF = 0x70 → decode ⟨w, data⟩ = .ok .genEnd) ∧
    (w &&& 0xFF = 0x80 → decode ⟨w, data⟩ = .ok .genErr) ∧
    (w &&& 0xFE = 0x90 → decode ⟨w, data⟩ = .ok (.tick (w.getLsbD 0))) ∧
    (w &&& 0xFF = 0xA0 → decode ⟨w, data⟩ = .ok .cfgf) ∧
    (w &&& 0xFF = 0xFF → decode ⟨w, data⟩ = .ok .rst)

/-- R94: every word that is not one of the 13 legal words is reserved, and no other. -/
def Obligations.OtherWordsAreReserved : Prop :=
  ∀ (w : EventWord) (data : List Sample),
    decode ⟨w, data⟩ = .error (.reserved w) ↔
      w ∉ [0x00, 0x10, 0x20, 0x30, 0x40, 0x50, 0x60, 0x70, 0x80, 0x90, 0x91, 0xA0, 0xFF]

/-- R90 to R95: decoding the bits of an encoded event gives the event back, with every operand: the level of TICK and all
16 samples of ACQ.DONE. The place of the payload's bits above the event word is the model's choice (log 10). -/
def Obligations.DecodeOfEncodedBits : Prop :=
  ∀ i : Instr, i.WellFormed → decodeTableWord 264 (encodeBits i) = some i

/-- R98: the encoded form of a trace, each event word followed by its samples, reads back as the trace. -/
def Obligations.DecodeOfEncodedTrace : Prop :=
  ∀ tr : List Instr, (∀ i ∈ tr, i.WellFormed) → decodeTrace (encodeTrace tr) = .ok tr

/-- R15, R90, R215, R220, R247: a step takes the next event from the port and is `exec` of the decoded event; a reserved word
goes to its own meaning; where nothing is presented the step is an engine event that is enabled, or `IDLE` where none is. That
the events wait in a list of State is the model's choice (log 1), and so is that the engine takes its turn where the list is
empty; which stream goes first there is a free value (log 23). -/
def Obligations.StepRunsTheDecodedEvent : Prop :=
  ∀ (s : State) (e : PortEvent) (rest : List PortEvent),
    (s.port = e :: rest → ∀ i, decode e = .ok i → i.WellFormed ∧ step s = exec i (s.withPort rest)) ∧
    (s.port = e :: rest → ∀ w, decode e = .error (.reserved w) → step s = takeReserved w (s.withPort rest)) ∧
    (s.port = [] → (∀ i, IsEngine i → ¬Enabled i s) → step s = exec .idle s) ∧
    (s.port = [] → (∃ i, IsEngine i ∧ Enabled i s) →
      ∃ i k, IsEngine i ∧ Enabled i s ∧ step s = exec i { s with freeTurn := k })

/-! ### The Double-Buffer Exchange -/

/-- R121: `ACQ.DONE` in `RUN`: the 16 samples go to the adapter's buffer, the drop and torn bits record a completion that
comes too early, the ownership flips, the completion is pending. Nothing else changes, nor any other element of
`ACQ_BUF`. -/
def Obligations.AcqDoneStoresAndFlips : Prop :=
  ∀ (s : State) (data : List Sample), s.runst = .run → data.length = 16 →
    ∃ buf, exec (.acqDone data) s = .next { s with
        acqBuf := buf
        acq := { s.acq with
          drop := if s.acq.pend = true ∨ s.acq.busy = true then true else s.acq.drop
          torn := if s.acq.busy = true then true else s.acq.torn
          ct := ~~~s.acq.ct
          pend := true }
        output := .none } ∧
      (∀ i < 16, Memory.read? buf (acqBase s.acq.ct + i) = data[i]?) ∧
      (∀ a, a < acqBase s.acq.ct ∨ acqBase s.acq.ct + 16 ≤ a → Memory.read? buf a = Memory.read? s.acqBuf a)

/-- R123: `ACQ.BEGIN` where it is enabled, and its refusal where it is not. -/
def Obligations.AcqBeginStartsTheService : Prop :=
  ∀ s : State,
    (s.runst = .run → s.acq.pend = true → s.acq.busy = false →
      exec .acqBegin s = .next { s with
        acq := { s.acq with pend := false, cur := ~~~s.acq.ct, busy := true }
        lmf := s.firMode
        lmi := s.iirMode
        output := .none }) ∧
    (¬(s.runst = .run ∧ s.acq.pend = true ∧ s.acq.busy = false) →
      exec .acqBegin s = .refused (.notEnabled "ACQ.BEGIN"))

/-- R124: `ACQ.ERR` in `RUN`. -/
def Obligations.AcqErrRearms : Prop :=
  ∀ s : State, s.runst = .run →
    exec .acqErr s = .next { s with
      acq := { s.acq with
        drop := true
        pend := false
        ct := 0
        torn := if s.acq.busy = true then true else s.acq.torn }
      output := .none }

/-- R125: `GEN.DONE` in `RUN`: the drained buffer is emitted, the bits change as those of `ACQ.DONE` do, no memory is
written. An element that was written since reset is emitted with its value; of the others nothing is said (R64). -/
def Obligations.GenDoneEmitsAndFlips : Prop :=
  ∀ s : State, s.runst = .run →
    ∃ emit k, exec .genDone s = .next { s with
        gen := { s.gen with
          drop := if s.gen.pend = true ∨ s.gen.busy = true then true else s.gen.drop
          torn := if s.gen.busy = true then true else s.gen.torn
          ct := ~~~s.gen.ct
          pend := true }
        freeGen := k
        output := .emit emit } ∧
      emit.length = 256 ∧
      ∀ i < 256, ∀ v, Memory.read? s.genBuf (genBase s.gen.ct + i) = some v → emit[i]? = some v

/-- R126: `GEN.BEGIN` where it is enabled, and its refusal where it is not. -/
def Obligations.GenBeginStartsTheService : Prop :=
  ∀ s : State,
    (s.runst = .run → s.gen.pend = true → s.gen.busy = false →
      exec .genBegin s = .next { s with
        gen := { s.gen with pend := false, cur := ~~~s.gen.ct, busy := true }
        output := .none }) ∧
    (¬(s.runst = .run ∧ s.gen.pend = true ∧ s.gen.busy = false) →
      exec .genBegin s = .refused (.notEnabled "GEN.BEGIN"))

/-- R127: `GEN.ERR` in `RUN`: the modulator, the table index and the buffers are untouched. -/
def Obligations.GenErrRearms : Prop :=
  ∀ s : State, s.runst = .run →
    exec .genErr s = .next { s with
      gen := { s.gen with
        drop := true
        pend := false
        ct := 0
        torn := if s.gen.busy = true then true else s.gen.torn }
      output := .none }

/-- R128 (a), (b): two completions with no `BEGIN` between them make the next service report the same buffer index as the
service before, a drop is reported, and for `ACQ` that buffer holds the newest interval. The service before may be over, or
in progress and end before, between or after the two completions (with banks, or a table entry and a modulator, on which its
`END` completes). -/
def Obligations.TwoCompletionsReportTheSameBuffer : Prop :=
  (∀ (s : State) (d1 d2 : List Sample) (tr : List Instr), s.runst = .run → s.acq.cur = ~~~s.acq.ct →
    d1.length = 16 → d2.length = 16 →
    (s.acq.busy = false ∧ tr = [.acqDone d1, .acqDone d2, .acqBegin]) ∨
      (s.acq.busy = true ∧ s.config.BanksInContract ∧
        tr ∈ [[.acqEnd, .acqDone d1, .acqDone d2, .acqBegin], [.acqDone d1, .acqEnd, .acqDone d2, .acqBegin],
          [.acqDone d1, .acqDone d2, .acqEnd, .acqBegin]]) →
    ∃ t, runEvents tr s = .next t ∧ t.acq.cur = s.acq.cur ∧ t.acq.ct = s.acq.ct ∧
      t.acq.drop = true ∧ ∀ i < 16, Memory.read? t.acqBuf (acqBase t.acq.cur + i) = d2[i]?) ∧
  (∀ (s : State) (tr : List Instr), s.runst = .run → s.gen.cur = ~~~s.gen.ct →
    (s.gen.busy = false ∧ tr = [.genDone, .genDone, .genBegin]) ∨
      (s.gen.busy = true ∧ MagnitudeInContract (s.config.table s.tidx) ∧ s.modu.Inv ∧
        tr ∈ [[.genEnd, .genDone, .genDone, .genBegin], [.genDone, .genEnd, .genDone, .genBegin],
          [.genDone, .genDone, .genEnd, .genBegin]]) →
    ∃ t, runEvents tr s = .next t ∧ t.gen.cur = s.gen.cur ∧ t.gen.ct = s.gen.ct ∧ t.gen.drop = true)

/-- R24, R128, R270: a drop flag becomes set only by a completion that finds the previous one not fully serviced, or by a
transfer fault, and is cleared only by `RST`. -/
def Obligations.DropRecordsMissedDeadlinesOnly : Prop :=
  ∀ (i : Instr) (s t : State), i ≠ .rst → exec i s = .next t →
    (s.acq.drop = true → t.acq.drop = true) ∧
    (s.gen.drop = true → t.gen.drop = true) ∧
    (s.acq.drop = false → t.acq.drop = true →
      i = .acqErr ∨ ((∃ data, i = .acqDone data) ∧ (s.acq.pend = true ∨ s.acq.busy = true))) ∧
    (s.gen.drop = false → t.gen.drop = true →
      i = .genErr ∨ (i = .genDone ∧ (s.gen.pend = true ∨ s.gen.busy = true)))

/-! ### The Filter Engine -/

/-- R141: `smacc` is the document's formula wherever the seed term and every partial sum lie in the signed 32-bit range,
and raises `AccRange` wherever one of them does not. -/
def Obligations.SmaccIsTheFormulaOrAccRange : Prop :=
  ∀ (y0 : Sample) (x a : List Sample) (s : ShiftField), x.length = a.length →
    ((∀ k ≤ x.length, -2 ^ 31 ≤ y0.toInt * 2 ^ s.toNat + partialDot x a k ∧
        y0.toInt * 2 ^ s.toNat + partialDot x a k ≤ 2 ^ 31 - 1) →
      ∃ r, smacc y0 x a s = .ok r ∧ r.toInt = clamp ((y0.toInt * 2 ^ s.toNat + dot x a) / 2 ^ s.toNat) (-32768) 32767) ∧
    ((∃ k ≤ x.length, y0.toInt * 2 ^ s.toNat + partialDot x a k < -2 ^ 31 ∨
        2 ^ 31 - 1 < y0.toInt * 2 ^ s.toNat + partialDot x a k) →
      smacc y0 x a s = .error .accRange)

/-- R80, R146: a FIR record that meets the contract gives, for every buffer, the written-out formula, and no fault. -/
def Obligations.FirUnderContractIsTheFormula : Prop :=
  ∀ (c : Config) (m : Fin 5) (ch : Fin 2) (buf : List Sample), buf.length = 16 → (c.firBank m ch).InContract →
    ∃ y, firApply c buf m ch = .ok y ∧
      y.toInt = clamp (((c.firBank m ch).offset.toInt * 2 ^ (c.firBank m ch).shift.toNat +
        dot buf (c.firBank m ch).taps.toList) / 2 ^ (c.firBank m ch).shift.toNat) (-32768) 32767

/-- R146, the document's Scenario A: the record `FIR_BANK[0][0]` on its own tap sequence saturates to 32767. -/
def Obligations.ScenarioA : Prop :=
  ∀ c : Config, firApply c [0, 1247, 2304, 3011, 3259, 3011, 2304, 1247, 0, -1247, -2304, -3011, -3259, -3011, -2304, -1247]
    0 0 = .ok 32767

/-- R150: one update of a section: the history shifts right by one, the input enters at the head, the output is the
`smacc` of the five slots and goes into the middle slot. -/
def Obligations.IirUpdateShiftsAndFeedsBack : Prop :=
  ∀ (c : Config) (h : History) (x0 : Sample) (m : Fin 5),
    (∀ y0, smacc 0 [x0, h.h0, h.h1, h.h2, h.h3]
        [(c.iirBank m).c0, (c.iirBank m).c1, (c.iirBank m).c2, (c.iirBank m).c3, (c.iirBank m).c4] (c.iirBank m).shift = .ok y0 →
      iirUpdate c h x0 m = .ok (⟨x0, h.h0, y0, h.h2, h.h3⟩, y0)) ∧
    (smacc 0 [x0, h.h0, h.h1, h.h2, h.h3]
        [(c.iirBank m).c0, (c.iirBank m).c1, (c.iirBank m).c2, (c.iirBank m).c3, (c.iirBank m).c4] (c.iirBank m).shift =
        .error .accRange →
      iirUpdate c h x0 m = .error .accRange)

/-- R151: from the zero history, the outputs of a section are the saturating recurrence of its inputs and past outputs,
and the history holds the last two inputs and the last three outputs. -/
def Obligations.IirSectionIsTheRecurrence : Prop :=
  ∀ (r : IirRecord) (xs ys : List Sample) (h : History), iirRun r History.reset xs = .ok (h, ys) →
    ys.length = xs.length ∧
    (∀ n < xs.length, (before ys n 0).toInt = clamp ((r.c0.toInt * (before xs n 0).toInt +
        r.c1.toInt * (before xs n 1).toInt + r.c2.toInt * (before xs n 2).toInt +
        r.c3.toInt * (before ys n 1).toInt + r.c4.toInt * (before ys n 2).toInt) / 2 ^ r.shift.toNat) (-32768) 32767) ∧
    (∀ n, xs.length = n + 1 →
      h = ⟨before xs n 0, before xs n 1, before ys n 0, before ys n 1, before ys n 2⟩)

/-- R156: `ACQ.END` where it is enabled, with any banks: the 16 samples are those of buffer `CUR_A` unless the service is torn
(then nothing is said of them, R157); where the six evaluations raise nothing, both cascades' histories and outputs are
written and the two flags clear, and nothing else changes (but the model's counter of free values); where one of them raises
`AccRange`, the event ends in it. -/
def Obligations.AcqEndRunsTheCascades : Prop :=
  ∀ s : State, s.runst = .run → s.acq.busy = true →
    ∃ x k, x.length = 16 ∧
      (s.acq.torn = false → ∀ i < 16, ∀ v, Memory.read? s.acqBuf (acqBase s.acq.cur + i) = some v → x[i]? = some v) ∧
      (∀ k0 k1 y0 y1, CascadeRuns s.config x s.lmf s.lmi 0 s.iirs.ch0 k0 y0 →
        CascadeRuns s.config x s.lmf s.lmi 1 s.iirs.ch1 k1 y1 →
        exec .acqEnd s = .next { s with
          iirs := ⟨k0, k1⟩
          out0 := y0
          out1 := y1
          acq := { s.acq with busy := false, torn := false }
          freeAcq := k
          output := .strobe y0 y1 }) ∧
      ((¬∃ k0 y0, CascadeRuns s.config x s.lmf s.lmi 0 s.iirs.ch0 k0 y0) ∨
        (¬∃ k1 y1, CascadeRuns s.config x s.lmf s.lmi 1 s.iirs.ch1 k1 y1) → exec .acqEnd s = .fault .accRange)

/-- R156, R157, R80: `ACQ.END` where it is enabled, with banks that meet the contract of R80: both channels' outputs and
histories are the formulas on 16 samples, which are those of buffer `CUR_A` unless the service is torn. Nothing else
changes but the two flags (and the model's counter of free values). -/
def Obligations.AcqEndFiltersTheBuffer : Prop :=
  ∀ s : State, s.runst = .run → s.acq.busy = true → s.config.BanksInContract →
    ∃ x k, x.length = 16 ∧
      (s.acq.torn = false → ∀ i < 16, ∀ v, Memory.read? s.acqBuf (acqBase s.acq.cur + i) = some v → x[i]? = some v) ∧
      exec .acqEnd s = .next { s with
        iirs := ⟨(channelFormula (s.config.firBank s.lmf 0) (s.config.iirBank s.lmi) x s.iirs.ch0).1,
          (channelFormula (s.config.firBank s.lmf 1) (s.config.iirBank s.lmi) x s.iirs.ch1).1⟩
        out0 := (channelFormula (s.config.firBank s.lmf 0) (s.config.iirBank s.lmi) x s.iirs.ch0).2
        out1 := (channelFormula (s.config.firBank s.lmf 1) (s.config.iirBank s.lmi) x s.iirs.ch1).2
        acq := { s.acq with busy := false, torn := false }
        freeAcq := k
        output := .strobe (channelFormula (s.config.firBank s.lmf 0) (s.config.iirBank s.lmi) x s.iirs.ch0).2
          (channelFormula (s.config.firBank s.lmf 1) (s.config.iirBank s.lmi) x s.iirs.ch1).2 }

/-- R143, R156, R215: with any banks, `ACQ.END` stops only in two ways: it is refused exactly where it is not enabled, as not
enabled, and where a sum leaves the accumulator's range it faults with `AccRange`, which banks that meet the contract of R80
exclude. -/
def Obligations.AcqEndStopsOnlyByName : Prop :=
  ∀ s : State,
    (¬(s.runst = .run ∧ s.acq.busy = true) → exec .acqEnd s = .refused (.notEnabled "ACQ.END")) ∧
    (∀ r, exec .acqEnd s = .refused r → ¬(s.runst = .run ∧ s.acq.busy = true)) ∧
    (∀ f, exec .acqEnd s = .fault f → f = .accRange ∧ ¬s.config.BanksInContract)

/-- R75 (a), R121, R123, R155, R156: a timely acquisition frame outputs the cascade of its own 16 samples, in the modes the
selectors have, whatever the buffers held before. -/
def Obligations.TimelyFrameFiltersItsOwnSamples : Prop :=
  ∀ (s : State) (data : List Sample), s.runst = .run → s.acq.busy = false → s.acq.torn = false → s.config.BanksInContract →
    data.length = 16 →
    ∃ t, runEvents (acqFrame data) s = .next t ∧
      t.out0 = (channelFormula (s.config.firBank s.firMode 0) (s.config.iirBank s.iirMode) data s.iirs.ch0).2 ∧
      t.out1 = (channelFormula (s.config.firBank s.firMode 1) (s.config.iirBank s.iirMode) data s.iirs.ch1).2 ∧
      t.iirs.ch0 = (channelFormula (s.config.firBank s.firMode 0) (s.config.iirBank s.iirMode) data s.iirs.ch0).1 ∧
      t.iirs.ch1 = (channelFormula (s.config.firBank s.firMode 1) (s.config.iirBank s.iirMode) data s.iirs.ch1).1 ∧
      t.acq.pend = false ∧ t.acq.busy = false ∧ t.acq.ct = ~~~s.acq.ct

/-! ### The Noise-Shaping Modulator -/

/-- R171: `prbs_step` bit by bit, and that it never reaches zero from a nonzero register (R172). -/
def Obligations.PrbsShiftsLeftAndStaysNonzero : Prop :=
  ∀ l : BitVec 16,
    prbsBit l = (l.getLsbD 15 ^^ l.getLsbD 14 ^^ l.getLsbD 12 ^^ l.getLsbD 3) ∧
    (prbsNext l).getLsbD 0 = prbsBit l ∧
    (∀ j < 15, (prbsNext l).getLsbD (j + 1) = l.getLsbD j) ∧
    (l ≠ 0 → prbsNext l ≠ 0)

/-- R172: from seed 1 the generator visits all 65535 nonzero 16-bit values before repeating. -/
def Obligations.PrbsHasMaximalPeriod : Prop :=
  prbsNext^[65535] 1 = 1 ∧
  (∀ k, 0 < k → k < 65535 → prbsNext^[k] 1 ≠ 1) ∧
  (∀ v : BitVec 16, v ≠ 0 → ∃ k < 65535, prbsNext^[k] 1 = v)

/-- R174: one modulation step, written out on 17-bit sums: three stages, each adding the accumulator the stage before has
just updated, their carries, the two difference cells, the correction and the range check. -/
def Obligations.ModStepOnSeventeenBitSums : Prop :=
  ∀ (mag : BitVec 24) (m : Modulator),
    let s1 : BitVec 17 := m.acc0.setWidth 17 + (mag.extractLsb' 0 16).setWidth 17 +
      (BitVec.ofBool (prbsBit m.lfsr)).setWidth 17
    let a0 : BitVec 16 := s1.extractLsb' 0 16
    let s2 : BitVec 17 := m.acc1.setWidth 17 + a0.setWidth 17
    let a1 : BitVec 16 := s2.extractLsb' 0 16
    let s3 : BitVec 17 := m.acc2.setWidth 17 + a1.setWidth 17
    let a2 : BitVec 16 := s3.extractLsb' 0 16
    let c1 : Int := (s1.getLsbD 16).toNat
    let c2 : Int := (s2.getLsbD 16).toNat
    let c3 : Int := (s3.getLsbD 16).toNat
    let e2 : Int := c2 + (c3 - m.dc0.toNat)
    let y : Int := (mag.extractLsb' 16 8).toNat + (c1 + (e2 - m.dc1.toInt))
    ((y < 0 ∨ 255 < y) → modStep mag m = .error .modRange) ∧
    (0 ≤ y → y ≤ 255 → ∃ m' v, modStep mag m = .ok (m', v) ∧ (v.toNat : Int) = y ∧
      m'.lfsr = prbsNext m.lfsr ∧ m'.acc0 = a0 ∧ m'.acc1 = a1 ∧ m'.acc2 = a2 ∧
      (m'.dc0.toNat : Int) = c3 ∧ m'.dc1.toInt = e2)

/-- R175, R176: from a modulator state within its ranges and a magnitude within the contract of R68, the step answers, its
output is within -3..4 of the high bits, and the ranges hold again. -/
def Obligations.ModStepUnderContract : Prop :=
  ∀ (mag : BitVec 24) (m : Modulator), m.Inv → MagnitudeInContract mag →
    ∃ m' y, modStep mag m = .ok (m', y) ∧ (magHigh mag).toNat ≤ y.toNat + 3 ∧ y.toNat ≤ (magHigh mag).toNat + 4 ∧ m'.Inv

/-- R174, the document's Scenario B: the first step from the initial modulator state with table entry 0. -/
def Obligations.ScenarioB : Prop :=
  modStep 0xfae147 Modulator.reset = .ok (⟨0x0002, 0xE147, 0xE147, 0xE147, 0, 0⟩, 250)

/-- R175: no bias. Over any run of steps with one magnitude, 65536 times the sum of the outputs is the number of steps
times the 24-bit magnitude, plus the dither ones, up to what the accumulator and the second difference cell hold. -/
def Obligations.ModulatorHasNoBias : Prop :=
  ∀ (n : Nat) (mag : BitVec 24) (m m' : Modulator) (ys : List GenSample), modRun n mag m = .ok (m', ys) →
    ys.length = n ∧ m'.lfsr = prbsNext^[n] m.lfsr ∧
    65536 * ((ys.map (fun y => (y.toNat : Int))).sum) + m'.acc0.toNat =
      n * mag.toNat + ((List.range n).countP (fun k => prbsBit (prbsNext^[k] m.lfsr))) + m.acc0.toNat +
        65536 * (m'.dc1.toInt - m.dc1.toInt)

/-- R178, R179: `GEN.END` where it is enabled. With `r k` the registers after `k` steps of `mod_step` on the entry `TIDX` selects:
where the 256 steps raise nothing and `v` holds their outputs in order, sample `k` being that of step `k`, the modulator has
the registers after them, the buffer `CUR_G` takes the samples (or, torn, each element its old or its new value), the index
advances modulo 36, the two flags clear, nothing else changes (but the model's counter of free values). Where one of the
steps raises a fault, the event ends in it. Where it is not enabled it is refused. -/
def Obligations.GenEndFillsTheBuffer : Prop :=
  ∀ (s : State) (r : Nat → Modulator), r 0 = s.modu →
    (∀ v : List GenSample, s.runst = .run → s.gen.busy = true → StepsInOrder (s.config.table s.tidx) r v 256 →
      ∃ buf k, exec .genEnd s = .next { s with
          modu := r 256
          genBuf := buf
          tidx := s.tidx + 1
          gen := { s.gen with busy := false, torn := false }
          freeGen := k
          output := .none } ∧
        (s.gen.torn = false → ∀ i < 256, Memory.read? buf (genBase s.gen.cur + i) = v[i]?) ∧
        (s.gen.torn = true → ∀ i < 256, Memory.read? buf (genBase s.gen.cur + i) = v[i]? ∨
          Memory.read? buf (genBase s.gen.cur + i) = Memory.read? s.genBuf (genBase s.gen.cur + i)) ∧
        (∀ a, a < genBase s.gen.cur ∨ genBase s.gen.cur + 256 ≤ a → Memory.read? buf a = Memory.read? s.genBuf a)) ∧
    (∀ k < 256, ∀ f, s.runst = .run → s.gen.busy = true →
      (∀ j < k, ∃ y, modStep (s.config.table s.tidx) (r j) = .ok (r (j + 1), y)) →
      modStep (s.config.table s.tidx) (r k) = .error f → f = .modRange ∧ exec .genEnd s = .fault .modRange) ∧
    (¬(s.runst = .run ∧ s.gen.busy = true) → exec .genEnd s = .refused (.notEnabled "GEN.END"))

/-- R176, R178: `GEN.END` completes wherever it is enabled, the modulator is within its ranges and the table entry meets
the contract of R68; the ranges hold again, and the pseudo-random register has advanced 256 times. -/
def Obligations.GenEndCompletesUnderContract : Prop :=
  ∀ s : State, s.runst = .run → s.gen.busy = true → s.modu.Inv → MagnitudeInContract (s.config.table s.tidx) →
    ∃ t, exec .genEnd s = .next t ∧ t.modu.Inv ∧ t.modu.lfsr = prbsNext^[256] s.modu.lfsr ∧
      t.tidx.val = (s.tidx.val + 1) % 36 ∧ t.gen.busy = false ∧ t.gen.torn = false

/-- R75 (b), R64: the 256 samples an untorn service wrote, those of its modulation steps in order, are the ones a later
completion of that buffer emits, if that buffer's elements are then as the service left them (whatever was written to the
other buffer). -/
def Obligations.EmissionIsWhatTheServiceWrote : Prop :=
  ∀ (s t u : State) (r : Nat → Modulator) (v : List GenSample), s.gen.torn = false → r 0 = s.modu →
    StepsInOrder (s.config.table s.tidx) r v 256 → exec .genEnd s = .next t →
    (∀ i < 256, Memory.read? u.genBuf (genBase s.gen.cur + i) = Memory.read? t.genBuf (genBase s.gen.cur + i)) →
    u.gen.ct = s.gen.cur → u.runst = .run →
    ∃ w, exec .genDone u = .next w ∧ w.output = .emit v

/-- R180: each timely generation frame advances the table index by one modulo 36 and the pseudo-random register by 256
steps. -/
def Obligations.TableAdvancesOncePerFrame : Prop :=
  ∀ (n : Nat) (s : State), s.runst = .run → s.gen.pend = false → s.gen.busy = false → s.modu.Inv → s.config.TableInContract →
    ∃ t, runEvents (List.replicate n genFrame).flatten s = .next t ∧
      t.tidx.val = (s.tidx.val + n) % 36 ∧ t.modu.lfsr = prbsNext^[256 * n] s.modu.lfsr ∧
      t.gen.pend = false ∧ t.gen.busy = false

/-! ### The Debounce Classifier -/

/-- R193: the six rows of the transition table. -/
def Obligations.DebounceTable : Prop :=
  ∀ (c : Config) (t : Nat),
    (t < c.tLong → debTick c true t = (t + 1, .none)) ∧
    (t = c.tLong → debTick c true t = (t + 1, .long)) ∧
    (c.tLong < t → debTick c false t = (c.tShort / 2, .none)) ∧
    (c.tShort ≤ t → t ≤ c.tLong → debTick c false t = (c.tShort / 2, .short)) ∧
    (0 < t → t < c.tShort → debTick c false t = (t - 1, .none)) ∧
    (c.tLong < t → debTick c true t = (t, .none)) ∧
    (t = 0 → debTick c false t = (t, .none))

/-- R194, R195: `TICK` in `RUN`: the counter takes the table's value, `Short` advances `FIR_MODE` and `Long` advances `IIR_MODE`,
each modulo 5, and nothing else changes. -/
def Obligations.TickClassifiesAndAdvancesModes : Prop :=
  ∀ (s : State) (level : Bool), s.runst = .run →
    exec (.tick level) s = .next { s with
      t := (debTick s.config level s.t).1
      firMode := if (debTick s.config level s.t).2 = .short then s.firMode + 1 else s.firMode
      iirMode := if (debTick s.config level s.t).2 = .long then s.iirMode + 1 else s.iirMode
      output := .debounce (debTick s.config level s.t).2 }

/-- R196, R197: a press of `n` ticks from the idle counter, and the release after it: too short, nothing; `T_SHORT` to
`T_LONG` ticks, exactly one `Short`, on the release; more, exactly one `Long`, on tick `T_LONG + 1`, and no `Short`. -/
def Obligations.OneEventPerPress : Prop :=
  ∀ (s : State) (n : Nat), s.runst = .run → s.t = 0 →
    ∃ t u, runEvents (press n) s = .next t ∧ exec (.tick false) t = .next u ∧
      (n ≤ s.config.tLong → t.t = n ∧ t.firMode = s.firMode ∧ t.iirMode = s.iirMode) ∧
      (s.config.tLong < n → t.t = s.config.tLong + 1 ∧ t.firMode = s.firMode ∧ t.iirMode = s.iirMode + 1) ∧
      (n < s.config.tShort → u.t = n - 1 ∧ u.firMode = s.firMode ∧ u.iirMode = s.iirMode) ∧
      (s.config.tShort ≤ n → n ≤ s.config.tLong →
        u.t = s.config.tShort / 2 ∧ u.firMode = s.firMode + 1 ∧ u.iirMode = s.iirMode) ∧
      (s.config.tLong < n → u.t = s.config.tShort / 2 ∧ u.firMode = s.firMode ∧ u.iirMode = s.iirMode + 1)

/-- R7, R191, R192: the thresholds satisfy `1 <= T_SHORT < T_LONG`, and `CNT_W` is the smallest width that holds `T_LONG + 1`. -/
def Obligations.ThresholdsAndCounterWidth : Prop :=
  ∀ c : Config, 1 ≤ c.tShort ∧ c.tShort < c.tLong ∧
    c.tLong + 1 < 2 ^ c.cntW ∧ ∀ w, c.tLong + 1 < 2 ^ w → c.cntW ≤ w

/-! ### Dispatch, halting, reset -/

/-- R211: `IDLE` in every state: no state element changes, and there is no output. -/
def Obligations.IdleChangesNothing : Prop :=
  ∀ s : State, exec .idle s = .next { s with output := .none }

/-- R213: `CFGF` in `RUN` halts the CORE with cause 2 and the word `0xA0`; nothing else changes. -/
def Obligations.ConfigurationFaultHalts : Prop :=
  ∀ s : State, s.runst = .run →
    exec .cfgf s = .next { s with
      runst := .halt
      cause := .configurationFault
      info := 0xA0
      output := .diagnostic .configurationFault 0xA0 } ∧
    Cause.code .configurationFault = 2

/-- R94, R214: every word that is not one of the 13 legal words is reserved, and in `RUN` it halts the CORE with cause 1 and
the word; nothing else changes. -/
def Obligations.ReservedWordHalts : Prop :=
  ∀ (s : State) (w : EventWord) (data : List Sample), s.runst = .run →
    w ∉ [0x00, 0x10, 0x20, 0x30, 0x40, 0x50, 0x60, 0x70, 0x80, 0x90, 0x91, 0xA0, 0xFF] →
    ∃ r, decode ⟨w, data⟩ = .error r ∧
      takeRejected r s = .next { s with
        runst := .halt
        cause := .unexpectedInterrupt
        info := w
        output := .diagnostic .unexpectedInterrupt w } ∧
      Cause.code .unexpectedInterrupt = 1

/-- R237: in `HALT` every external event (and a reserved word) leaves every state element and both memories
unchanged and produces no output; the four engine events are refused. -/
def Obligations.HaltIgnoresAllButReset : Prop :=
  ∀ s : State, s.runst = .halt →
    (∀ data, data.length = 16 → exec (.acqDone data) s = .next { s with output := .none }) ∧
    (∀ level, exec (.tick level) s = .next { s with output := .none }) ∧
    exec .genDone s = .next { s with output := .none } ∧
    exec .acqErr s = .next { s with output := .none } ∧
    exec .genErr s = .next { s with output := .none } ∧
    exec .cfgf s = .next { s with output := .none } ∧
    exec .idle s = .next { s with output := .none } ∧
    (∀ w, takeReserved w s = .next { s with output := .none }) ∧
    exec .acqBegin s = .refused (.notEnabled "ACQ.BEGIN") ∧
    exec .acqEnd s = .refused (.notEnabled "ACQ.END") ∧
    exec .genBegin s = .refused (.notEnabled "GEN.BEGIN") ∧
    exec .genEnd s = .refused (.notEnabled "GEN.END")

/-- R95: the payload of `ACQ.DONE` always has 16 samples, so another one cannot be presented. That the model refuses it, in
every state, is the model's choice (log 20). -/
def Obligations.AcqDoneNeedsSixteenSamples : Prop :=
  ∀ (s : State) (data : List Sample), data.length ≠ 16 → exec (.acqDone data) s = .refused .badPayload

/-- R260: `RST` in every state, `RUN` or `HALT`: every state element takes the value of the table of R39, no buffer element
holds a defined value, there is no output, the parameters stay. -/
def Obligations.ResetRestoresEverything : Prop :=
  ∀ s : State, ∃ j k, exec .rst s = .next { s with
    acq := ⟨0, false, false, 0, false, false⟩
    lmf := 0
    lmi := 0
    iirs := ⟨⟨⟨0, 0, 0, 0, 0⟩, ⟨0, 0, 0, 0, 0⟩⟩, ⟨⟨0, 0, 0, 0, 0⟩, ⟨0, 0, 0, 0, 0⟩⟩⟩
    out0 := 0
    out1 := 0
    gen := ⟨0, false, false, 0, false, false⟩
    modu := ⟨1, 0, 0, 0, 0, 0⟩
    tidx := 0
    t := 0
    firMode := 0
    iirMode := 0
    runst := .run
    cause := .none
    info := 0
    acqBuf := []
    genBuf := []
    output := .none
    freeAcq := j
    freeGen := k }

/-- R39, R261: the state right after reset, element by element, and no buffer element holding a defined value (R63). -/
def Obligations.ResetStateValues : Prop :=
  State.reset.acq = ⟨0, false, false, 0, false, false⟩ ∧ State.reset.gen = ⟨0, false, false, 0, false, false⟩ ∧
  State.reset.lmf = 0 ∧ State.reset.lmi = 0 ∧
  State.reset.iirs = ⟨⟨⟨0, 0, 0, 0, 0⟩, ⟨0, 0, 0, 0, 0⟩⟩, ⟨⟨0, 0, 0, 0, 0⟩, ⟨0, 0, 0, 0, 0⟩⟩⟩ ∧
  State.reset.out0 = 0 ∧ State.reset.out1 = 0 ∧ State.reset.modu = ⟨1, 0, 0, 0, 0, 0⟩ ∧
  State.reset.tidx = 0 ∧ State.reset.t = 0 ∧ State.reset.firMode = 0 ∧ State.reset.iirMode = 0 ∧
  State.reset.runst = .run ∧ State.reset.cause.code = 0 ∧ State.reset.info = 0 ∧
  (∀ a, Memory.read? State.reset.acqBuf a = none) ∧ (∀ a, Memory.read? State.reset.genBuf a = none)

/-- R236, R238: no step but one that takes `RST` leaves `HALT`, and the diagnostic of the first halt stays until then. -/
def Obligations.OnlyResetLeavesHalt : Prop :=
  ∀ s t : State, s.runst = .halt → step s = .next t →
    decode (nextEvent s).1 = .ok .rst ∨
    (t.runst = .halt ∧ t.cause = s.cause ∧ t.info = s.info ∧ State.SameAcquisition s t ∧ State.SameGeneration s t ∧
      State.SameDebounce s t)

/-- R35: the invariants hold at reset. -/
def Obligations.InvariantsHoldAtReset : Prop :=
  State.reset.Inv ∧ State.reset.AcqReady

/-- R35: every step from a state with the invariants leads to a state with the invariants. -/
def Obligations.StepKeepsTheInvariants : Prop :=
  ∀ s t : State, s.Inv → step s = .next t → t.Inv

/-- R63, R122: every step keeps it that the buffers the engine will read without a torn service have been written. -/
def Obligations.StepKeepsAcquisitionBuffersWritten : Prop :=
  ∀ s t : State, s.AcqReady → step s = .next t → t.AcqReady

/-- R240: with a configuration that meets the contracts of R68 and R80, and the modulator within its ranges, no step raises a
model-level fault, whatever the samples, and every step keeps the two conditions, so that no later step raises one either. -/
def Obligations.ContractExcludesFaults : Prop :=
  ∀ s : State, s.config.InContract → s.modu.Inv →
    NoFault (step s) ∧ ∀ t, step s = .next t → t.config.InContract ∧ t.modu.Inv

/-- R65: no event writes a parameter or a read-only table, and reset does not change them. -/
def Obligations.ParametersAreNeverWritten : Prop :=
  ∀ s t : State, step s = .next t → t.config = s.config

/-- R34: each event but `RST` writes only the elements its own source owns. -/
def Obligations.EachSourceWritesItsOwnElements : Prop :=
  ∀ (i : Instr) (s t : State), i ≠ .rst → exec i s = .next t →
    (¬IsAcquisition i → State.SameAcquisition s t) ∧
    (¬IsGeneration i → State.SameGeneration s t) ∧
    ((∀ level, i ≠ .tick level) → State.SameDebounce s t) ∧
    (i ≠ .cfgf → State.SameRun s t)

/-- R218: an acquisition event and a generation event commute: where one order answers a next state so does the other, and
the two final states are the same, but for the record of the latest output. -/
def Obligations.StreamsCommute : Prop :=
  ∀ (a g : Instr) (s : State), IsAcquisition a → IsGeneration g →
    (∀ s1 s2, exec a s = .next s1 → exec g s1 = .next s2 →
      ∃ u1 u2, exec g s = .next u1 ∧ exec a u1 = .next u2 ∧ u2.withOutput .none = s2.withOutput .none) ∧
    (∀ u1 u2, exec g s = .next u1 → exec a u1 = .next u2 →
      ∃ s1 s2, exec a s = .next s1 ∧ exec g s1 = .next s2 ∧ s2.withOutput .none = u2.withOutput .none)

/-- R158, R218: `TICK` commutes with every event of the two streams but `ACQ.BEGIN`, in both directions; a mode change inside a
service has no effect on that service. That the sentence of R218 is read as one on stream events is log 22. -/
def Obligations.TickCommutesWithStreamEvents : Prop :=
  ∀ (i : Instr) (level : Bool) (s : State), IsAcquisition i ∨ IsGeneration i → i ≠ .acqBegin →
    (∀ s1 s2, exec (.tick level) s = .next s1 → exec i s1 = .next s2 →
      ∃ u1 u2, exec i s = .next u1 ∧ exec (.tick level) u1 = .next u2 ∧ u2.withOutput .none = s2.withOutput .none) ∧
    (∀ u1 u2, exec i s = .next u1 → exec (.tick level) u1 = .next u2 →
      ∃ s1 s2, exec (.tick level) s = .next s1 ∧ exec i s1 = .next s2 ∧ s2.withOutput .none = u2.withOutput .none)

/-- R220: once the adapter presents no more events of a stream, at most two services of that stream leave it with nothing
pending and no service in progress. -/
def Obligations.TwoServicesDrainAStream : Prop :=
  ∀ s : State, s.runst = .run →
    (s.config.BanksInContract →
      ∃ tr t, tr ∈ [[], [.acqEnd], acqService, .acqEnd :: acqService] ∧ runEvents tr s = .next t ∧
        t.acq.pend = false ∧ t.acq.busy = false) ∧
    (s.config.TableInContract → s.modu.Inv →
      ∃ tr t, tr ∈ [[], [.genEnd], genService, .genEnd :: genService] ∧ runEvents tr s = .next t ∧
        t.gen.pend = false ∧ t.gen.busy = false)

/-- R220, D39: in every weakly fair infinite run that stays in `RUN` from event `n` on, with no events of a stream's adapter from
there on, the stream comes to have nothing pending and no service in progress, for good, and at most two of its services end
from there on. -/
def Obligations.FairRunsDrainAStream : Prop :=
  ∀ (ev : Nat → PortEvent) (σ : Nat → State) (n : Nat), IsRun ev σ → WeaklyFair ev σ → (∀ m ≥ n, (σ m).runst = .run) →
    ((∀ m ≥ n, decode (ev m) ≠ .ok .acqErr ∧ ∀ data, decode (ev m) ≠ .ok (.acqDone data)) →
      (∃ m ≥ n, ∀ k ≥ m, (σ k).acq.pend = false ∧ (σ k).acq.busy = false) ∧
      ∀ len, (List.range len).countP (fun j => decide (decode (ev (n + j)) = .ok .acqEnd)) ≤ 2) ∧
    ((∀ m ≥ n, decode (ev m) ≠ .ok .genErr ∧ decode (ev m) ≠ .ok .genDone) →
      (∃ m ≥ n, ∀ k ≥ m, (σ k).gen.pend = false ∧ (σ k).gen.busy = false) ∧
      ∀ len, (List.range len).countP (fun j => decide (decode (ev (n + j)) = .ok .genEnd)) ≤ 2)

/-- R220, D39: every infinite run of the machine's own step is weakly fair: an engine event that stays enabled is eventually
taken. That the list of presented events is finite and the engine then takes its turn is the model's (log 1, log 23). -/
def Obligations.StepRunsAreWeaklyFair : Prop :=
  ∀ σ : Nat → State, IsStepRun σ → WeaklyFair (takenEvents σ) σ

/-- R215, R220: where nothing is presented any more, at most six steps (an end, a beginning and an end for either stream) leave
both streams with nothing pending and no service in progress. That the engine takes its turn where nothing is presented is
the model's choice (log 23). -/
def Obligations.QuietPortDrainsBothStreams : Prop :=
  ∀ s : State, s.port = [] → s.runst = .run → s.config.InContract → s.modu.Inv →
    ∃ n ≤ 6, ∃ t, runSteps n s = .next t ∧ t.port = [] ∧ t.acq.pend = false ∧ t.acq.busy = false ∧
      t.gen.pend = false ∧ t.gen.busy = false
end

