-- ==== Sys2Proof/Laws/Debounce.lean ====
section
/-! SUPPORT. What one debounce step can do (43_debounce.md R192 to R195). -/

namespace Sys2Proof.Machine

/-- R192: the counter stays in `0 .. T_LONG + 1`. -/
theorem debTick_bound (c : Config) (level : Bool) (t : Nat) (h : t ≤ c.tLong + 1) :
    (debTick c level t).1 ≤ c.tLong + 1 := by
  have h1 : c.tShort < c.tLong := by simp only [Config.tLong]; omega
  cases level <;> simp only [debTick] <;> split_ifs <;> omega

/-- A step answers `Short` exactly in row 4 of the table of R193. -/
theorem debTick_short_iff (c : Config) (level : Bool) (t : Nat) :
    (debTick c level t).2 = .short ↔ level = false ∧ c.tShort ≤ t ∧ t ≤ c.tLong := by
  cases level <;> simp only [debTick] <;> split_ifs <;> simp <;> omega

/-- A step answers `Long` exactly in row 2 of the table of R193. -/
theorem debTick_long_iff (c : Config) (level : Bool) (t : Nat) :
    (debTick c level t).2 = .long ↔ level = true ∧ t = c.tLong := by
  cases level <;> simp only [debTick] <;> split_ifs <;> simp <;> omega

/-- The next bank is plus one modulo the number of banks (R195), and so is the next table entry (R178 step 4). -/
theorem nextBank_val (n : Nat) (m : Fin n) : (nextBank n m).val = (m.val + 1) % n := rfl

theorem nextBank_fir (m : Fin nbFir) : nextBank nbFir m = m + 1 := rfl

theorem nextBank_tab (k : Fin nTab) : nextBank nTab k = k + 1 := rfl

end Sys2Proof.Machine
end

