-- ==== Sys2Proof/Laws/State.lean ====
section
/-! SUPPORT. One lemma per field per named update of the state, so that no later proof unfolds a record update. -/

namespace Sys2Proof.Machine

/-! ### `withOutput` -/

@[simp] theorem State.withOutput_acq (s : State) (o : OutputRecord) : (s.withOutput o).acq = s.acq := rfl
@[simp] theorem State.withOutput_lmf (s : State) (o : OutputRecord) : (s.withOutput o).lmf = s.lmf := rfl
@[simp] theorem State.withOutput_lmi (s : State) (o : OutputRecord) : (s.withOutput o).lmi = s.lmi := rfl
@[simp] theorem State.withOutput_iirs (s : State) (o : OutputRecord) : (s.withOutput o).iirs = s.iirs := rfl
@[simp] theorem State.withOutput_out0 (s : State) (o : OutputRecord) : (s.withOutput o).out0 = s.out0 := rfl
@[simp] theorem State.withOutput_out1 (s : State) (o : OutputRecord) : (s.withOutput o).out1 = s.out1 := rfl
@[simp] theorem State.withOutput_gen (s : State) (o : OutputRecord) : (s.withOutput o).gen = s.gen := rfl
@[simp] theorem State.withOutput_modu (s : State) (o : OutputRecord) : (s.withOutput o).modu = s.modu := rfl
@[simp] theorem State.withOutput_tidx (s : State) (o : OutputRecord) : (s.withOutput o).tidx = s.tidx := rfl
@[simp] theorem State.withOutput_t (s : State) (o : OutputRecord) : (s.withOutput o).t = s.t := rfl
@[simp] theorem State.withOutput_firMode (s : State) (o : OutputRecord) : (s.withOutput o).firMode = s.firMode := rfl
@[simp] theorem State.withOutput_iirMode (s : State) (o : OutputRecord) : (s.withOutput o).iirMode = s.iirMode := rfl
@[simp] theorem State.withOutput_runst (s : State) (o : OutputRecord) : (s.withOutput o).runst = s.runst := rfl
@[simp] theorem State.withOutput_cause (s : State) (o : OutputRecord) : (s.withOutput o).cause = s.cause := rfl
@[simp] theorem State.withOutput_info (s : State) (o : OutputRecord) : (s.withOutput o).info = s.info := rfl
@[simp] theorem State.withOutput_acqBuf (s : State) (o : OutputRecord) : (s.withOutput o).acqBuf = s.acqBuf := rfl
@[simp] theorem State.withOutput_genBuf (s : State) (o : OutputRecord) : (s.withOutput o).genBuf = s.genBuf := rfl
@[simp] theorem State.withOutput_config (s : State) (o : OutputRecord) : (s.withOutput o).config = s.config := rfl
@[simp] theorem State.withOutput_port (s : State) (o : OutputRecord) : (s.withOutput o).port = s.port := rfl
@[simp] theorem State.withOutput_output (s : State) (o : OutputRecord) : (s.withOutput o).output = o := rfl
@[simp] theorem State.withOutput_freeAcq (s : State) (o : OutputRecord) : (s.withOutput o).freeAcq = s.freeAcq := rfl
@[simp] theorem State.withOutput_freeGen (s : State) (o : OutputRecord) : (s.withOutput o).freeGen = s.freeGen := rfl
@[simp] theorem State.withOutput_freeTurn (s : State) (o : OutputRecord) : (s.withOutput o).freeTurn = s.freeTurn := rfl

/-! ### `silent` -/

@[simp] theorem State.silent_acq (s : State) : s.silent.acq = s.acq := rfl
@[simp] theorem State.silent_lmf (s : State) : s.silent.lmf = s.lmf := rfl
@[simp] theorem State.silent_lmi (s : State) : s.silent.lmi = s.lmi := rfl
@[simp] theorem State.silent_iirs (s : State) : s.silent.iirs = s.iirs := rfl
@[simp] theorem State.silent_out0 (s : State) : s.silent.out0 = s.out0 := rfl
@[simp] theorem State.silent_out1 (s : State) : s.silent.out1 = s.out1 := rfl
@[simp] theorem State.silent_gen (s : State) : s.silent.gen = s.gen := rfl
@[simp] theorem State.silent_modu (s : State) : s.silent.modu = s.modu := rfl
@[simp] theorem State.silent_tidx (s : State) : s.silent.tidx = s.tidx := rfl
@[simp] theorem State.silent_t (s : State) : s.silent.t = s.t := rfl
@[simp] theorem State.silent_firMode (s : State) : s.silent.firMode = s.firMode := rfl
@[simp] theorem State.silent_iirMode (s : State) : s.silent.iirMode = s.iirMode := rfl
@[simp] theorem State.silent_runst (s : State) : s.silent.runst = s.runst := rfl
@[simp] theorem State.silent_cause (s : State) : s.silent.cause = s.cause := rfl
@[simp] theorem State.silent_info (s : State) : s.silent.info = s.info := rfl
@[simp] theorem State.silent_acqBuf (s : State) : s.silent.acqBuf = s.acqBuf := rfl
@[simp] theorem State.silent_genBuf (s : State) : s.silent.genBuf = s.genBuf := rfl
@[simp] theorem State.silent_config (s : State) : s.silent.config = s.config := rfl
@[simp] theorem State.silent_port (s : State) : s.silent.port = s.port := rfl
@[simp] theorem State.silent_output (s : State) : s.silent.output = .none := rfl
@[simp] theorem State.silent_freeAcq (s : State) : s.silent.freeAcq = s.freeAcq := rfl
@[simp] theorem State.silent_freeGen (s : State) : s.silent.freeGen = s.freeGen := rfl
@[simp] theorem State.silent_freeTurn (s : State) : s.silent.freeTurn = s.freeTurn := rfl

/-! ### `withAcq` -/

@[simp] theorem State.withAcq_acq (s : State) (x : Exchange) : (s.withAcq x).acq = x := rfl
@[simp] theorem State.withAcq_lmf (s : State) (x : Exchange) : (s.withAcq x).lmf = s.lmf := rfl
@[simp] theorem State.withAcq_lmi (s : State) (x : Exchange) : (s.withAcq x).lmi = s.lmi := rfl
@[simp] theorem State.withAcq_iirs (s : State) (x : Exchange) : (s.withAcq x).iirs = s.iirs := rfl
@[simp] theorem State.withAcq_out0 (s : State) (x : Exchange) : (s.withAcq x).out0 = s.out0 := rfl
@[simp] theorem State.withAcq_out1 (s : State) (x : Exchange) : (s.withAcq x).out1 = s.out1 := rfl
@[simp] theorem State.withAcq_gen (s : State) (x : Exchange) : (s.withAcq x).gen = s.gen := rfl
@[simp] theorem State.withAcq_modu (s : State) (x : Exchange) : (s.withAcq x).modu = s.modu := rfl
@[simp] theorem State.withAcq_tidx (s : State) (x : Exchange) : (s.withAcq x).tidx = s.tidx := rfl
@[simp] theorem State.withAcq_t (s : State) (x : Exchange) : (s.withAcq x).t = s.t := rfl
@[simp] theorem State.withAcq_firMode (s : State) (x : Exchange) : (s.withAcq x).firMode = s.firMode := rfl
@[simp] theorem State.withAcq_iirMode (s : State) (x : Exchange) : (s.withAcq x).iirMode = s.iirMode := rfl
@[simp] theorem State.withAcq_runst (s : State) (x : Exchange) : (s.withAcq x).runst = s.runst := rfl
@[simp] theorem State.withAcq_cause (s : State) (x : Exchange) : (s.withAcq x).cause = s.cause := rfl
@[simp] theorem State.withAcq_info (s : State) (x : Exchange) : (s.withAcq x).info = s.info := rfl
@[simp] theorem State.withAcq_acqBuf (s : State) (x : Exchange) : (s.withAcq x).acqBuf = s.acqBuf := rfl
@[simp] theorem State.withAcq_genBuf (s : State) (x : Exchange) : (s.withAcq x).genBuf = s.genBuf := rfl
@[simp] theorem State.withAcq_config (s : State) (x : Exchange) : (s.withAcq x).config = s.config := rfl
@[simp] theorem State.withAcq_port (s : State) (x : Exchange) : (s.withAcq x).port = s.port := rfl
@[simp] theorem State.withAcq_output (s : State) (x : Exchange) : (s.withAcq x).output = s.output := rfl
@[simp] theorem State.withAcq_freeAcq (s : State) (x : Exchange) : (s.withAcq x).freeAcq = s.freeAcq := rfl
@[simp] theorem State.withAcq_freeGen (s : State) (x : Exchange) : (s.withAcq x).freeGen = s.freeGen := rfl
@[simp] theorem State.withAcq_freeTurn (s : State) (x : Exchange) : (s.withAcq x).freeTurn = s.freeTurn := rfl

/-! ### `withGen` -/

@[simp] theorem State.withGen_acq (s : State) (x : Exchange) : (s.withGen x).acq = s.acq := rfl
@[simp] theorem State.withGen_lmf (s : State) (x : Exchange) : (s.withGen x).lmf = s.lmf := rfl
@[simp] theorem State.withGen_lmi (s : State) (x : Exchange) : (s.withGen x).lmi = s.lmi := rfl
@[simp] theorem State.withGen_iirs (s : State) (x : Exchange) : (s.withGen x).iirs = s.iirs := rfl
@[simp] theorem State.withGen_out0 (s : State) (x : Exchange) : (s.withGen x).out0 = s.out0 := rfl
@[simp] theorem State.withGen_out1 (s : State) (x : Exchange) : (s.withGen x).out1 = s.out1 := rfl
@[simp] theorem State.withGen_gen (s : State) (x : Exchange) : (s.withGen x).gen = x := rfl
@[simp] theorem State.withGen_modu (s : State) (x : Exchange) : (s.withGen x).modu = s.modu := rfl
@[simp] theorem State.withGen_tidx (s : State) (x : Exchange) : (s.withGen x).tidx = s.tidx := rfl
@[simp] theorem State.withGen_t (s : State) (x : Exchange) : (s.withGen x).t = s.t := rfl
@[simp] theorem State.withGen_firMode (s : State) (x : Exchange) : (s.withGen x).firMode = s.firMode := rfl
@[simp] theorem State.withGen_iirMode (s : State) (x : Exchange) : (s.withGen x).iirMode = s.iirMode := rfl
@[simp] theorem State.withGen_runst (s : State) (x : Exchange) : (s.withGen x).runst = s.runst := rfl
@[simp] theorem State.withGen_cause (s : State) (x : Exchange) : (s.withGen x).cause = s.cause := rfl
@[simp] theorem State.withGen_info (s : State) (x : Exchange) : (s.withGen x).info = s.info := rfl
@[simp] theorem State.withGen_acqBuf (s : State) (x : Exchange) : (s.withGen x).acqBuf = s.acqBuf := rfl
@[simp] theorem State.withGen_genBuf (s : State) (x : Exchange) : (s.withGen x).genBuf = s.genBuf := rfl
@[simp] theorem State.withGen_config (s : State) (x : Exchange) : (s.withGen x).config = s.config := rfl
@[simp] theorem State.withGen_port (s : State) (x : Exchange) : (s.withGen x).port = s.port := rfl
@[simp] theorem State.withGen_output (s : State) (x : Exchange) : (s.withGen x).output = s.output := rfl
@[simp] theorem State.withGen_freeAcq (s : State) (x : Exchange) : (s.withGen x).freeAcq = s.freeAcq := rfl
@[simp] theorem State.withGen_freeGen (s : State) (x : Exchange) : (s.withGen x).freeGen = s.freeGen := rfl
@[simp] theorem State.withGen_freeTurn (s : State) (x : Exchange) : (s.withGen x).freeTurn = s.freeTurn := rfl

/-! ### `withAcqBuf` -/

@[simp] theorem State.withAcqBuf_acq (s : State) (m : Cells 16) : (s.withAcqBuf m).acq = s.acq := rfl
@[simp] theorem State.withAcqBuf_lmf (s : State) (m : Cells 16) : (s.withAcqBuf m).lmf = s.lmf := rfl
@[simp] theorem State.withAcqBuf_lmi (s : State) (m : Cells 16) : (s.withAcqBuf m).lmi = s.lmi := rfl
@[simp] theorem State.withAcqBuf_iirs (s : State) (m : Cells 16) : (s.withAcqBuf m).iirs = s.iirs := rfl
@[simp] theorem State.withAcqBuf_out0 (s : State) (m : Cells 16) : (s.withAcqBuf m).out0 = s.out0 := rfl
@[simp] theorem State.withAcqBuf_out1 (s : State) (m : Cells 16) : (s.withAcqBuf m).out1 = s.out1 := rfl
@[simp] theorem State.withAcqBuf_gen (s : State) (m : Cells 16) : (s.withAcqBuf m).gen = s.gen := rfl
@[simp] theorem State.withAcqBuf_modu (s : State) (m : Cells 16) : (s.withAcqBuf m).modu = s.modu := rfl
@[simp] theorem State.withAcqBuf_tidx (s : State) (m : Cells 16) : (s.withAcqBuf m).tidx = s.tidx := rfl
@[simp] theorem State.withAcqBuf_t (s : State) (m : Cells 16) : (s.withAcqBuf m).t = s.t := rfl
@[simp] theorem State.withAcqBuf_firMode (s : State) (m : Cells 16) : (s.withAcqBuf m).firMode = s.firMode := rfl
@[simp] theorem State.withAcqBuf_iirMode (s : State) (m : Cells 16) : (s.withAcqBuf m).iirMode = s.iirMode := rfl
@[simp] theorem State.withAcqBuf_runst (s : State) (m : Cells 16) : (s.withAcqBuf m).runst = s.runst := rfl
@[simp] theorem State.withAcqBuf_cause (s : State) (m : Cells 16) : (s.withAcqBuf m).cause = s.cause := rfl
@[simp] theorem State.withAcqBuf_info (s : State) (m : Cells 16) : (s.withAcqBuf m).info = s.info := rfl
@[simp] theorem State.withAcqBuf_acqBuf (s : State) (m : Cells 16) : (s.withAcqBuf m).acqBuf = m := rfl
@[simp] theorem State.withAcqBuf_genBuf (s : State) (m : Cells 16) : (s.withAcqBuf m).genBuf = s.genBuf := rfl
@[simp] theorem State.withAcqBuf_config (s : State) (m : Cells 16) : (s.withAcqBuf m).config = s.config := rfl
@[simp] theorem State.withAcqBuf_port (s : State) (m : Cells 16) : (s.withAcqBuf m).port = s.port := rfl
@[simp] theorem State.withAcqBuf_output (s : State) (m : Cells 16) : (s.withAcqBuf m).output = s.output := rfl
@[simp] theorem State.withAcqBuf_freeAcq (s : State) (m : Cells 16) : (s.withAcqBuf m).freeAcq = s.freeAcq := rfl
@[simp] theorem State.withAcqBuf_freeGen (s : State) (m : Cells 16) : (s.withAcqBuf m).freeGen = s.freeGen := rfl
@[simp] theorem State.withAcqBuf_freeTurn (s : State) (m : Cells 16) : (s.withAcqBuf m).freeTurn = s.freeTurn := rfl

/-! ### `withGenBuf` -/

@[simp] theorem State.withGenBuf_acq (s : State) (m : Cells 8) : (s.withGenBuf m).acq = s.acq := rfl
@[simp] theorem State.withGenBuf_lmf (s : State) (m : Cells 8) : (s.withGenBuf m).lmf = s.lmf := rfl
@[simp] theorem State.withGenBuf_lmi (s : State) (m : Cells 8) : (s.withGenBuf m).lmi = s.lmi := rfl
@[simp] theorem State.withGenBuf_iirs (s : State) (m : Cells 8) : (s.withGenBuf m).iirs = s.iirs := rfl
@[simp] theorem State.withGenBuf_out0 (s : State) (m : Cells 8) : (s.withGenBuf m).out0 = s.out0 := rfl
@[simp] theorem State.withGenBuf_out1 (s : State) (m : Cells 8) : (s.withGenBuf m).out1 = s.out1 := rfl
@[simp] theorem State.withGenBuf_gen (s : State) (m : Cells 8) : (s.withGenBuf m).gen = s.gen := rfl
@[simp] theorem State.withGenBuf_modu (s : State) (m : Cells 8) : (s.withGenBuf m).modu = s.modu := rfl
@[simp] theorem State.withGenBuf_tidx (s : State) (m : Cells 8) : (s.withGenBuf m).tidx = s.tidx := rfl
@[simp] theorem State.withGenBuf_t (s : State) (m : Cells 8) : (s.withGenBuf m).t = s.t := rfl
@[simp] theorem State.withGenBuf_firMode (s : State) (m : Cells 8) : (s.withGenBuf m).firMode = s.firMode := rfl
@[simp] theorem State.withGenBuf_iirMode (s : State) (m : Cells 8) : (s.withGenBuf m).iirMode = s.iirMode := rfl
@[simp] theorem State.withGenBuf_runst (s : State) (m : Cells 8) : (s.withGenBuf m).runst = s.runst := rfl
@[simp] theorem State.withGenBuf_cause (s : State) (m : Cells 8) : (s.withGenBuf m).cause = s.cause := rfl
@[simp] theorem State.withGenBuf_info (s : State) (m : Cells 8) : (s.withGenBuf m).info = s.info := rfl
@[simp] theorem State.withGenBuf_acqBuf (s : State) (m : Cells 8) : (s.withGenBuf m).acqBuf = s.acqBuf := rfl
@[simp] theorem State.withGenBuf_genBuf (s : State) (m : Cells 8) : (s.withGenBuf m).genBuf = m := rfl
@[simp] theorem State.withGenBuf_config (s : State) (m : Cells 8) : (s.withGenBuf m).config = s.config := rfl
@[simp] theorem State.withGenBuf_port (s : State) (m : Cells 8) : (s.withGenBuf m).port = s.port := rfl
@[simp] theorem State.withGenBuf_output (s : State) (m : Cells 8) : (s.withGenBuf m).output = s.output := rfl
@[simp] theorem State.withGenBuf_freeAcq (s : State) (m : Cells 8) : (s.withGenBuf m).freeAcq = s.freeAcq := rfl
@[simp] theorem State.withGenBuf_freeGen (s : State) (m : Cells 8) : (s.withGenBuf m).freeGen = s.freeGen := rfl
@[simp] theorem State.withGenBuf_freeTurn (s : State) (m : Cells 8) : (s.withGenBuf m).freeTurn = s.freeTurn := rfl

/-! ### `withLatched` -/

@[simp] theorem State.withLatched_acq (s : State) (f : Fin nbFir) (i : Fin nbIir) : (s.withLatched f i).acq = s.acq := rfl
@[simp] theorem State.withLatched_lmf (s : State) (f : Fin nbFir) (i : Fin nbIir) : (s.withLatched f i).lmf = f := rfl
@[simp] theorem State.withLatched_lmi (s : State) (f : Fin nbFir) (i : Fin nbIir) : (s.withLatched f i).lmi = i := rfl
@[simp] theorem State.withLatched_iirs (s : State) (f : Fin nbFir) (i : Fin nbIir) : (s.withLatched f i).iirs = s.iirs := rfl
@[simp] theorem State.withLatched_out0 (s : State) (f : Fin nbFir) (i : Fin nbIir) : (s.withLatched f i).out0 = s.out0 := rfl
@[simp] theorem State.withLatched_out1 (s : State) (f : Fin nbFir) (i : Fin nbIir) : (s.withLatched f i).out1 = s.out1 := rfl
@[simp] theorem State.withLatched_gen (s : State) (f : Fin nbFir) (i : Fin nbIir) : (s.withLatched f i).gen = s.gen := rfl
@[simp] theorem State.withLatched_modu (s : State) (f : Fin nbFir) (i : Fin nbIir) : (s.withLatched f i).modu = s.modu := rfl
@[simp] theorem State.withLatched_tidx (s : State) (f : Fin nbFir) (i : Fin nbIir) : (s.withLatched f i).tidx = s.tidx := rfl
@[simp] theorem State.withLatched_t (s : State) (f : Fin nbFir) (i : Fin nbIir) : (s.withLatched f i).t = s.t := rfl
@[simp] theorem State.withLatched_firMode (s : State) (f : Fin nbFir) (i : Fin nbIir) : (s.withLatched f i).firMode = s.firMode := rfl
@[simp] theorem State.withLatched_iirMode (s : State) (f : Fin nbFir) (i : Fin nbIir) : (s.withLatched f i).iirMode = s.iirMode := rfl
@[simp] theorem State.withLatched_runst (s : State) (f : Fin nbFir) (i : Fin nbIir) : (s.withLatched f i).runst = s.runst := rfl
@[simp] theorem State.withLatched_cause (s : State) (f : Fin nbFir) (i : Fin nbIir) : (s.withLatched f i).cause = s.cause := rfl
@[simp] theorem State.withLatched_info (s : State) (f : Fin nbFir) (i : Fin nbIir) : (s.withLatched f i).info = s.info := rfl
@[simp] theorem State.withLatched_acqBuf (s : State) (f : Fin nbFir) (i : Fin nbIir) : (s.withLatched f i).acqBuf = s.acqBuf := rfl
@[simp] theorem State.withLatched_genBuf (s : State) (f : Fin nbFir) (i : Fin nbIir) : (s.withLatched f i).genBuf = s.genBuf := rfl
@[simp] theorem State.withLatched_config (s : State) (f : Fin nbFir) (i : Fin nbIir) : (s.withLatched f i).config = s.config := rfl
@[simp] theorem State.withLatched_port (s : State) (f : Fin nbFir) (i : Fin nbIir) : (s.withLatched f i).port = s.port := rfl
@[simp] theorem State.withLatched_output (s : State) (f : Fin nbFir) (i : Fin nbIir) : (s.withLatched f i).output = s.output := rfl
@[simp] theorem State.withLatched_freeAcq (s : State) (f : Fin nbFir) (i : Fin nbIir) : (s.withLatched f i).freeAcq = s.freeAcq := rfl
@[simp] theorem State.withLatched_freeGen (s : State) (f : Fin nbFir) (i : Fin nbIir) : (s.withLatched f i).freeGen = s.freeGen := rfl
@[simp] theorem State.withLatched_freeTurn (s : State) (f : Fin nbFir) (i : Fin nbIir) : (s.withLatched f i).freeTurn = s.freeTurn := rfl

/-! ### `withFiltered` -/

@[simp] theorem State.withFiltered_acq (s : State) (k : IirFile) (a b : Sample) : (s.withFiltered k a b).acq = s.acq := rfl
@[simp] theorem State.withFiltered_lmf (s : State) (k : IirFile) (a b : Sample) : (s.withFiltered k a b).lmf = s.lmf := rfl
@[simp] theorem State.withFiltered_lmi (s : State) (k : IirFile) (a b : Sample) : (s.withFiltered k a b).lmi = s.lmi := rfl
@[simp] theorem State.withFiltered_iirs (s : State) (k : IirFile) (a b : Sample) : (s.withFiltered k a b).iirs = k := rfl
@[simp] theorem State.withFiltered_out0 (s : State) (k : IirFile) (a b : Sample) : (s.withFiltered k a b).out0 = a := rfl
@[simp] theorem State.withFiltered_out1 (s : State) (k : IirFile) (a b : Sample) : (s.withFiltered k a b).out1 = b := rfl
@[simp] theorem State.withFiltered_gen (s : State) (k : IirFile) (a b : Sample) : (s.withFiltered k a b).gen = s.gen := rfl
@[simp] theorem State.withFiltered_modu (s : State) (k : IirFile) (a b : Sample) : (s.withFiltered k a b).modu = s.modu := rfl
@[simp] theorem State.withFiltered_tidx (s : State) (k : IirFile) (a b : Sample) : (s.withFiltered k a b).tidx = s.tidx := rfl
@[simp] theorem State.withFiltered_t (s : State) (k : IirFile) (a b : Sample) : (s.withFiltered k a b).t = s.t := rfl
@[simp] theorem State.withFiltered_firMode (s : State) (k : IirFile) (a b : Sample) : (s.withFiltered k a b).firMode = s.firMode := rfl
@[simp] theorem State.withFiltered_iirMode (s : State) (k : IirFile) (a b : Sample) : (s.withFiltered k a b).iirMode = s.iirMode := rfl
@[simp] theorem State.withFiltered_runst (s : State) (k : IirFile) (a b : Sample) : (s.withFiltered k a b).runst = s.runst := rfl
@[simp] theorem State.withFiltered_cause (s : State) (k : IirFile) (a b : Sample) : (s.withFiltered k a b).cause = s.cause := rfl
@[simp] theorem State.withFiltered_info (s : State) (k : IirFile) (a b : Sample) : (s.withFiltered k a b).info = s.info := rfl
@[simp] theorem State.withFiltered_acqBuf (s : State) (k : IirFile) (a b : Sample) : (s.withFiltered k a b).acqBuf = s.acqBuf := rfl
@[simp] theorem State.withFiltered_genBuf (s : State) (k : IirFile) (a b : Sample) : (s.withFiltered k a b).genBuf = s.genBuf := rfl
@[simp] theorem State.withFiltered_config (s : State) (k : IirFile) (a b : Sample) : (s.withFiltered k a b).config = s.config := rfl
@[simp] theorem State.withFiltered_port (s : State) (k : IirFile) (a b : Sample) : (s.withFiltered k a b).port = s.port := rfl
@[simp] theorem State.withFiltered_output (s : State) (k : IirFile) (a b : Sample) : (s.withFiltered k a b).output = s.output := rfl
@[simp] theorem State.withFiltered_freeAcq (s : State) (k : IirFile) (a b : Sample) : (s.withFiltered k a b).freeAcq = s.freeAcq := rfl
@[simp] theorem State.withFiltered_freeGen (s : State) (k : IirFile) (a b : Sample) : (s.withFiltered k a b).freeGen = s.freeGen := rfl
@[simp] theorem State.withFiltered_freeTurn (s : State) (k : IirFile) (a b : Sample) : (s.withFiltered k a b).freeTurn = s.freeTurn := rfl

/-! ### `withModulator` -/

@[simp] theorem State.withModulator_acq (s : State) (m : Modulator) : (s.withModulator m).acq = s.acq := rfl
@[simp] theorem State.withModulator_lmf (s : State) (m : Modulator) : (s.withModulator m).lmf = s.lmf := rfl
@[simp] theorem State.withModulator_lmi (s : State) (m : Modulator) : (s.withModulator m).lmi = s.lmi := rfl
@[simp] theorem State.withModulator_iirs (s : State) (m : Modulator) : (s.withModulator m).iirs = s.iirs := rfl
@[simp] theorem State.withModulator_out0 (s : State) (m : Modulator) : (s.withModulator m).out0 = s.out0 := rfl
@[simp] theorem State.withModulator_out1 (s : State) (m : Modulator) : (s.withModulator m).out1 = s.out1 := rfl
@[simp] theorem State.withModulator_gen (s : State) (m : Modulator) : (s.withModulator m).gen = s.gen := rfl
@[simp] theorem State.withModulator_modu (s : State) (m : Modulator) : (s.withModulator m).modu = m := rfl
@[simp] theorem State.withModulator_tidx (s : State) (m : Modulator) : (s.withModulator m).tidx = s.tidx := rfl
@[simp] theorem State.withModulator_t (s : State) (m : Modulator) : (s.withModulator m).t = s.t := rfl
@[simp] theorem State.withModulator_firMode (s : State) (m : Modulator) : (s.withModulator m).firMode = s.firMode := rfl
@[simp] theorem State.withModulator_iirMode (s : State) (m : Modulator) : (s.withModulator m).iirMode = s.iirMode := rfl
@[simp] theorem State.withModulator_runst (s : State) (m : Modulator) : (s.withModulator m).runst = s.runst := rfl
@[simp] theorem State.withModulator_cause (s : State) (m : Modulator) : (s.withModulator m).cause = s.cause := rfl
@[simp] theorem State.withModulator_info (s : State) (m : Modulator) : (s.withModulator m).info = s.info := rfl
@[simp] theorem State.withModulator_acqBuf (s : State) (m : Modulator) : (s.withModulator m).acqBuf = s.acqBuf := rfl
@[simp] theorem State.withModulator_genBuf (s : State) (m : Modulator) : (s.withModulator m).genBuf = s.genBuf := rfl
@[simp] theorem State.withModulator_config (s : State) (m : Modulator) : (s.withModulator m).config = s.config := rfl
@[simp] theorem State.withModulator_port (s : State) (m : Modulator) : (s.withModulator m).port = s.port := rfl
@[simp] theorem State.withModulator_output (s : State) (m : Modulator) : (s.withModulator m).output = s.output := rfl
@[simp] theorem State.withModulator_freeAcq (s : State) (m : Modulator) : (s.withModulator m).freeAcq = s.freeAcq := rfl
@[simp] theorem State.withModulator_freeGen (s : State) (m : Modulator) : (s.withModulator m).freeGen = s.freeGen := rfl
@[simp] theorem State.withModulator_freeTurn (s : State) (m : Modulator) : (s.withModulator m).freeTurn = s.freeTurn := rfl

/-! ### `withTidx` -/

@[simp] theorem State.withTidx_acq (s : State) (k : Fin nTab) : (s.withTidx k).acq = s.acq := rfl
@[simp] theorem State.withTidx_lmf (s : State) (k : Fin nTab) : (s.withTidx k).lmf = s.lmf := rfl
@[simp] theorem State.withTidx_lmi (s : State) (k : Fin nTab) : (s.withTidx k).lmi = s.lmi := rfl
@[simp] theorem State.withTidx_iirs (s : State) (k : Fin nTab) : (s.withTidx k).iirs = s.iirs := rfl
@[simp] theorem State.withTidx_out0 (s : State) (k : Fin nTab) : (s.withTidx k).out0 = s.out0 := rfl
@[simp] theorem State.withTidx_out1 (s : State) (k : Fin nTab) : (s.withTidx k).out1 = s.out1 := rfl
@[simp] theorem State.withTidx_gen (s : State) (k : Fin nTab) : (s.withTidx k).gen = s.gen := rfl
@[simp] theorem State.withTidx_modu (s : State) (k : Fin nTab) : (s.withTidx k).modu = s.modu := rfl
@[simp] theorem State.withTidx_tidx (s : State) (k : Fin nTab) : (s.withTidx k).tidx = k := rfl
@[simp] theorem State.withTidx_t (s : State) (k : Fin nTab) : (s.withTidx k).t = s.t := rfl
@[simp] theorem State.withTidx_firMode (s : State) (k : Fin nTab) : (s.withTidx k).firMode = s.firMode := rfl
@[simp] theorem State.withTidx_iirMode (s : State) (k : Fin nTab) : (s.withTidx k).iirMode = s.iirMode := rfl
@[simp] theorem State.withTidx_runst (s : State) (k : Fin nTab) : (s.withTidx k).runst = s.runst := rfl
@[simp] theorem State.withTidx_cause (s : State) (k : Fin nTab) : (s.withTidx k).cause = s.cause := rfl
@[simp] theorem State.withTidx_info (s : State) (k : Fin nTab) : (s.withTidx k).info = s.info := rfl
@[simp] theorem State.withTidx_acqBuf (s : State) (k : Fin nTab) : (s.withTidx k).acqBuf = s.acqBuf := rfl
@[simp] theorem State.withTidx_genBuf (s : State) (k : Fin nTab) : (s.withTidx k).genBuf = s.genBuf := rfl
@[simp] theorem State.withTidx_config (s : State) (k : Fin nTab) : (s.withTidx k).config = s.config := rfl
@[simp] theorem State.withTidx_port (s : State) (k : Fin nTab) : (s.withTidx k).port = s.port := rfl
@[simp] theorem State.withTidx_output (s : State) (k : Fin nTab) : (s.withTidx k).output = s.output := rfl
@[simp] theorem State.withTidx_freeAcq (s : State) (k : Fin nTab) : (s.withTidx k).freeAcq = s.freeAcq := rfl
@[simp] theorem State.withTidx_freeGen (s : State) (k : Fin nTab) : (s.withTidx k).freeGen = s.freeGen := rfl
@[simp] theorem State.withTidx_freeTurn (s : State) (k : Fin nTab) : (s.withTidx k).freeTurn = s.freeTurn := rfl

/-! ### `withDebounce` -/

@[simp] theorem State.withDebounce_acq (s : State) (n : Nat) (f : Fin nbFir) (i : Fin nbIir) : (s.withDebounce n f i).acq = s.acq := rfl
@[simp] theorem State.withDebounce_lmf (s : State) (n : Nat) (f : Fin nbFir) (i : Fin nbIir) : (s.withDebounce n f i).lmf = s.lmf := rfl
@[simp] theorem State.withDebounce_lmi (s : State) (n : Nat) (f : Fin nbFir) (i : Fin nbIir) : (s.withDebounce n f i).lmi = s.lmi := rfl
@[simp] theorem State.withDebounce_iirs (s : State) (n : Nat) (f : Fin nbFir) (i : Fin nbIir) : (s.withDebounce n f i).iirs = s.iirs := rfl
@[simp] theorem State.withDebounce_out0 (s : State) (n : Nat) (f : Fin nbFir) (i : Fin nbIir) : (s.withDebounce n f i).out0 = s.out0 := rfl
@[simp] theorem State.withDebounce_out1 (s : State) (n : Nat) (f : Fin nbFir) (i : Fin nbIir) : (s.withDebounce n f i).out1 = s.out1 := rfl
@[simp] theorem State.withDebounce_gen (s : State) (n : Nat) (f : Fin nbFir) (i : Fin nbIir) : (s.withDebounce n f i).gen = s.gen := rfl
@[simp] theorem State.withDebounce_modu (s : State) (n : Nat) (f : Fin nbFir) (i : Fin nbIir) : (s.withDebounce n f i).modu = s.modu := rfl
@[simp] theorem State.withDebounce_tidx (s : State) (n : Nat) (f : Fin nbFir) (i : Fin nbIir) : (s.withDebounce n f i).tidx = s.tidx := rfl
@[simp] theorem State.withDebounce_t (s : State) (n : Nat) (f : Fin nbFir) (i : Fin nbIir) : (s.withDebounce n f i).t = n := rfl
@[simp] theorem State.withDebounce_firMode (s : State) (n : Nat) (f : Fin nbFir) (i : Fin nbIir) : (s.withDebounce n f i).firMode = f := rfl
@[simp] theorem State.withDebounce_iirMode (s : State) (n : Nat) (f : Fin nbFir) (i : Fin nbIir) : (s.withDebounce n f i).iirMode = i := rfl
@[simp] theorem State.withDebounce_runst (s : State) (n : Nat) (f : Fin nbFir) (i : Fin nbIir) : (s.withDebounce n f i).runst = s.runst := rfl
@[simp] theorem State.withDebounce_cause (s : State) (n : Nat) (f : Fin nbFir) (i : Fin nbIir) : (s.withDebounce n f i).cause = s.cause := rfl
@[simp] theorem State.withDebounce_info (s : State) (n : Nat) (f : Fin nbFir) (i : Fin nbIir) : (s.withDebounce n f i).info = s.info := rfl
@[simp] theorem State.withDebounce_acqBuf (s : State) (n : Nat) (f : Fin nbFir) (i : Fin nbIir) : (s.withDebounce n f i).acqBuf = s.acqBuf := rfl
@[simp] theorem State.withDebounce_genBuf (s : State) (n : Nat) (f : Fin nbFir) (i : Fin nbIir) : (s.withDebounce n f i).genBuf = s.genBuf := rfl
@[simp] theorem State.withDebounce_config (s : State) (n : Nat) (f : Fin nbFir) (i : Fin nbIir) : (s.withDebounce n f i).config = s.config := rfl
@[simp] theorem State.withDebounce_port (s : State) (n : Nat) (f : Fin nbFir) (i : Fin nbIir) : (s.withDebounce n f i).port = s.port := rfl
@[simp] theorem State.withDebounce_output (s : State) (n : Nat) (f : Fin nbFir) (i : Fin nbIir) : (s.withDebounce n f i).output = s.output := rfl
@[simp] theorem State.withDebounce_freeAcq (s : State) (n : Nat) (f : Fin nbFir) (i : Fin nbIir) : (s.withDebounce n f i).freeAcq = s.freeAcq := rfl
@[simp] theorem State.withDebounce_freeGen (s : State) (n : Nat) (f : Fin nbFir) (i : Fin nbIir) : (s.withDebounce n f i).freeGen = s.freeGen := rfl
@[simp] theorem State.withDebounce_freeTurn (s : State) (n : Nat) (f : Fin nbFir) (i : Fin nbIir) : (s.withDebounce n f i).freeTurn = s.freeTurn := rfl

/-! ### `withRun` -/

@[simp] theorem State.withRun_acq (s : State) (r : RunState) (c : Cause) (w : EventWord) : (s.withRun r c w).acq = s.acq := rfl
@[simp] theorem State.withRun_lmf (s : State) (r : RunState) (c : Cause) (w : EventWord) : (s.withRun r c w).lmf = s.lmf := rfl
@[simp] theorem State.withRun_lmi (s : State) (r : RunState) (c : Cause) (w : EventWord) : (s.withRun r c w).lmi = s.lmi := rfl
@[simp] theorem State.withRun_iirs (s : State) (r : RunState) (c : Cause) (w : EventWord) : (s.withRun r c w).iirs = s.iirs := rfl
@[simp] theorem State.withRun_out0 (s : State) (r : RunState) (c : Cause) (w : EventWord) : (s.withRun r c w).out0 = s.out0 := rfl
@[simp] theorem State.withRun_out1 (s : State) (r : RunState) (c : Cause) (w : EventWord) : (s.withRun r c w).out1 = s.out1 := rfl
@[simp] theorem State.withRun_gen (s : State) (r : RunState) (c : Cause) (w : EventWord) : (s.withRun r c w).gen = s.gen := rfl
@[simp] theorem State.withRun_modu (s : State) (r : RunState) (c : Cause) (w : EventWord) : (s.withRun r c w).modu = s.modu := rfl
@[simp] theorem State.withRun_tidx (s : State) (r : RunState) (c : Cause) (w : EventWord) : (s.withRun r c w).tidx = s.tidx := rfl
@[simp] theorem State.withRun_t (s : State) (r : RunState) (c : Cause) (w : EventWord) : (s.withRun r c w).t = s.t := rfl
@[simp] theorem State.withRun_firMode (s : State) (r : RunState) (c : Cause) (w : EventWord) : (s.withRun r c w).firMode = s.firMode := rfl
@[simp] theorem State.withRun_iirMode (s : State) (r : RunState) (c : Cause) (w : EventWord) : (s.withRun r c w).iirMode = s.iirMode := rfl
@[simp] theorem State.withRun_runst (s : State) (r : RunState) (c : Cause) (w : EventWord) : (s.withRun r c w).runst = r := rfl
@[simp] theorem State.withRun_cause (s : State) (r : RunState) (c : Cause) (w : EventWord) : (s.withRun r c w).cause = c := rfl
@[simp] theorem State.withRun_info (s : State) (r : RunState) (c : Cause) (w : EventWord) : (s.withRun r c w).info = w := rfl
@[simp] theorem State.withRun_acqBuf (s : State) (r : RunState) (c : Cause) (w : EventWord) : (s.withRun r c w).acqBuf = s.acqBuf := rfl
@[simp] theorem State.withRun_genBuf (s : State) (r : RunState) (c : Cause) (w : EventWord) : (s.withRun r c w).genBuf = s.genBuf := rfl
@[simp] theorem State.withRun_config (s : State) (r : RunState) (c : Cause) (w : EventWord) : (s.withRun r c w).config = s.config := rfl
@[simp] theorem State.withRun_port (s : State) (r : RunState) (c : Cause) (w : EventWord) : (s.withRun r c w).port = s.port := rfl
@[simp] theorem State.withRun_output (s : State) (r : RunState) (c : Cause) (w : EventWord) : (s.withRun r c w).output = s.output := rfl
@[simp] theorem State.withRun_freeAcq (s : State) (r : RunState) (c : Cause) (w : EventWord) : (s.withRun r c w).freeAcq = s.freeAcq := rfl
@[simp] theorem State.withRun_freeGen (s : State) (r : RunState) (c : Cause) (w : EventWord) : (s.withRun r c w).freeGen = s.freeGen := rfl
@[simp] theorem State.withRun_freeTurn (s : State) (r : RunState) (c : Cause) (w : EventWord) : (s.withRun r c w).freeTurn = s.freeTurn := rfl

/-! ### `withPort` -/

@[simp] theorem State.withPort_acq (s : State) (p : List PortEvent) : (s.withPort p).acq = s.acq := rfl
@[simp] theorem State.withPort_lmf (s : State) (p : List PortEvent) : (s.withPort p).lmf = s.lmf := rfl
@[simp] theorem State.withPort_lmi (s : State) (p : List PortEvent) : (s.withPort p).lmi = s.lmi := rfl
@[simp] theorem State.withPort_iirs (s : State) (p : List PortEvent) : (s.withPort p).iirs = s.iirs := rfl
@[simp] theorem State.withPort_out0 (s : State) (p : List PortEvent) : (s.withPort p).out0 = s.out0 := rfl
@[simp] theorem State.withPort_out1 (s : State) (p : List PortEvent) : (s.withPort p).out1 = s.out1 := rfl
@[simp] theorem State.withPort_gen (s : State) (p : List PortEvent) : (s.withPort p).gen = s.gen := rfl
@[simp] theorem State.withPort_modu (s : State) (p : List PortEvent) : (s.withPort p).modu = s.modu := rfl
@[simp] theorem State.withPort_tidx (s : State) (p : List PortEvent) : (s.withPort p).tidx = s.tidx := rfl
@[simp] theorem State.withPort_t (s : State) (p : List PortEvent) : (s.withPort p).t = s.t := rfl
@[simp] theorem State.withPort_firMode (s : State) (p : List PortEvent) : (s.withPort p).firMode = s.firMode := rfl
@[simp] theorem State.withPort_iirMode (s : State) (p : List PortEvent) : (s.withPort p).iirMode = s.iirMode := rfl
@[simp] theorem State.withPort_runst (s : State) (p : List PortEvent) : (s.withPort p).runst = s.runst := rfl
@[simp] theorem State.withPort_cause (s : State) (p : List PortEvent) : (s.withPort p).cause = s.cause := rfl
@[simp] theorem State.withPort_info (s : State) (p : List PortEvent) : (s.withPort p).info = s.info := rfl
@[simp] theorem State.withPort_acqBuf (s : State) (p : List PortEvent) : (s.withPort p).acqBuf = s.acqBuf := rfl
@[simp] theorem State.withPort_genBuf (s : State) (p : List PortEvent) : (s.withPort p).genBuf = s.genBuf := rfl
@[simp] theorem State.withPort_config (s : State) (p : List PortEvent) : (s.withPort p).config = s.config := rfl
@[simp] theorem State.withPort_port (s : State) (p : List PortEvent) : (s.withPort p).port = p := rfl
@[simp] theorem State.withPort_output (s : State) (p : List PortEvent) : (s.withPort p).output = s.output := rfl
@[simp] theorem State.withPort_freeAcq (s : State) (p : List PortEvent) : (s.withPort p).freeAcq = s.freeAcq := rfl
@[simp] theorem State.withPort_freeGen (s : State) (p : List PortEvent) : (s.withPort p).freeGen = s.freeGen := rfl
@[simp] theorem State.withPort_freeTurn (s : State) (p : List PortEvent) : (s.withPort p).freeTurn = s.freeTurn := rfl

/-! ### `withTurn` -/

@[simp] theorem State.withTurn_acq (s : State) (k : Nat) : (s.withTurn k).acq = s.acq := rfl
@[simp] theorem State.withTurn_lmf (s : State) (k : Nat) : (s.withTurn k).lmf = s.lmf := rfl
@[simp] theorem State.withTurn_lmi (s : State) (k : Nat) : (s.withTurn k).lmi = s.lmi := rfl
@[simp] theorem State.withTurn_iirs (s : State) (k : Nat) : (s.withTurn k).iirs = s.iirs := rfl
@[simp] theorem State.withTurn_out0 (s : State) (k : Nat) : (s.withTurn k).out0 = s.out0 := rfl
@[simp] theorem State.withTurn_out1 (s : State) (k : Nat) : (s.withTurn k).out1 = s.out1 := rfl
@[simp] theorem State.withTurn_gen (s : State) (k : Nat) : (s.withTurn k).gen = s.gen := rfl
@[simp] theorem State.withTurn_modu (s : State) (k : Nat) : (s.withTurn k).modu = s.modu := rfl
@[simp] theorem State.withTurn_tidx (s : State) (k : Nat) : (s.withTurn k).tidx = s.tidx := rfl
@[simp] theorem State.withTurn_t (s : State) (k : Nat) : (s.withTurn k).t = s.t := rfl
@[simp] theorem State.withTurn_firMode (s : State) (k : Nat) : (s.withTurn k).firMode = s.firMode := rfl
@[simp] theorem State.withTurn_iirMode (s : State) (k : Nat) : (s.withTurn k).iirMode = s.iirMode := rfl
@[simp] theorem State.withTurn_runst (s : State) (k : Nat) : (s.withTurn k).runst = s.runst := rfl
@[simp] theorem State.withTurn_cause (s : State) (k : Nat) : (s.withTurn k).cause = s.cause := rfl
@[simp] theorem State.withTurn_info (s : State) (k : Nat) : (s.withTurn k).info = s.info := rfl
@[simp] theorem State.withTurn_acqBuf (s : State) (k : Nat) : (s.withTurn k).acqBuf = s.acqBuf := rfl
@[simp] theorem State.withTurn_genBuf (s : State) (k : Nat) : (s.withTurn k).genBuf = s.genBuf := rfl
@[simp] theorem State.withTurn_config (s : State) (k : Nat) : (s.withTurn k).config = s.config := rfl
@[simp] theorem State.withTurn_port (s : State) (k : Nat) : (s.withTurn k).port = s.port := rfl
@[simp] theorem State.withTurn_output (s : State) (k : Nat) : (s.withTurn k).output = s.output := rfl
@[simp] theorem State.withTurn_freeAcq (s : State) (k : Nat) : (s.withTurn k).freeAcq = s.freeAcq := rfl
@[simp] theorem State.withTurn_freeGen (s : State) (k : Nat) : (s.withTurn k).freeGen = s.freeGen := rfl
@[simp] theorem State.withTurn_freeTurn (s : State) (k : Nat) : (s.withTurn k).freeTurn = k := rfl

/-! ### `drawAcq` -/

@[simp] theorem State.drawAcq_acq (s : State) (n : Nat) : (s.drawAcq n).acq = s.acq := rfl
@[simp] theorem State.drawAcq_lmf (s : State) (n : Nat) : (s.drawAcq n).lmf = s.lmf := rfl
@[simp] theorem State.drawAcq_lmi (s : State) (n : Nat) : (s.drawAcq n).lmi = s.lmi := rfl
@[simp] theorem State.drawAcq_iirs (s : State) (n : Nat) : (s.drawAcq n).iirs = s.iirs := rfl
@[simp] theorem State.drawAcq_out0 (s : State) (n : Nat) : (s.drawAcq n).out0 = s.out0 := rfl
@[simp] theorem State.drawAcq_out1 (s : State) (n : Nat) : (s.drawAcq n).out1 = s.out1 := rfl
@[simp] theorem State.drawAcq_gen (s : State) (n : Nat) : (s.drawAcq n).gen = s.gen := rfl
@[simp] theorem State.drawAcq_modu (s : State) (n : Nat) : (s.drawAcq n).modu = s.modu := rfl
@[simp] theorem State.drawAcq_tidx (s : State) (n : Nat) : (s.drawAcq n).tidx = s.tidx := rfl
@[simp] theorem State.drawAcq_t (s : State) (n : Nat) : (s.drawAcq n).t = s.t := rfl
@[simp] theorem State.drawAcq_firMode (s : State) (n : Nat) : (s.drawAcq n).firMode = s.firMode := rfl
@[simp] theorem State.drawAcq_iirMode (s : State) (n : Nat) : (s.drawAcq n).iirMode = s.iirMode := rfl
@[simp] theorem State.drawAcq_runst (s : State) (n : Nat) : (s.drawAcq n).runst = s.runst := rfl
@[simp] theorem State.drawAcq_cause (s : State) (n : Nat) : (s.drawAcq n).cause = s.cause := rfl
@[simp] theorem State.drawAcq_info (s : State) (n : Nat) : (s.drawAcq n).info = s.info := rfl
@[simp] theorem State.drawAcq_acqBuf (s : State) (n : Nat) : (s.drawAcq n).acqBuf = s.acqBuf := rfl
@[simp] theorem State.drawAcq_genBuf (s : State) (n : Nat) : (s.drawAcq n).genBuf = s.genBuf := rfl
@[simp] theorem State.drawAcq_config (s : State) (n : Nat) : (s.drawAcq n).config = s.config := rfl
@[simp] theorem State.drawAcq_port (s : State) (n : Nat) : (s.drawAcq n).port = s.port := rfl
@[simp] theorem State.drawAcq_output (s : State) (n : Nat) : (s.drawAcq n).output = s.output := rfl
@[simp] theorem State.drawAcq_freeAcq (s : State) (n : Nat) : (s.drawAcq n).freeAcq = s.freeAcq + n := rfl
@[simp] theorem State.drawAcq_freeGen (s : State) (n : Nat) : (s.drawAcq n).freeGen = s.freeGen := rfl
@[simp] theorem State.drawAcq_freeTurn (s : State) (n : Nat) : (s.drawAcq n).freeTurn = s.freeTurn := rfl

/-! ### `drawGen` -/

@[simp] theorem State.drawGen_acq (s : State) (n : Nat) : (s.drawGen n).acq = s.acq := rfl
@[simp] theorem State.drawGen_lmf (s : State) (n : Nat) : (s.drawGen n).lmf = s.lmf := rfl
@[simp] theorem State.drawGen_lmi (s : State) (n : Nat) : (s.drawGen n).lmi = s.lmi := rfl
@[simp] theorem State.drawGen_iirs (s : State) (n : Nat) : (s.drawGen n).iirs = s.iirs := rfl
@[simp] theorem State.drawGen_out0 (s : State) (n : Nat) : (s.drawGen n).out0 = s.out0 := rfl
@[simp] theorem State.drawGen_out1 (s : State) (n : Nat) : (s.drawGen n).out1 = s.out1 := rfl
@[simp] theorem State.drawGen_gen (s : State) (n : Nat) : (s.drawGen n).gen = s.gen := rfl
@[simp] theorem State.drawGen_modu (s : State) (n : Nat) : (s.drawGen n).modu = s.modu := rfl
@[simp] theorem State.drawGen_tidx (s : State) (n : Nat) : (s.drawGen n).tidx = s.tidx := rfl
@[simp] theorem State.drawGen_t (s : State) (n : Nat) : (s.drawGen n).t = s.t := rfl
@[simp] theorem State.drawGen_firMode (s : State) (n : Nat) : (s.drawGen n).firMode = s.firMode := rfl
@[simp] theorem State.drawGen_iirMode (s : State) (n : Nat) : (s.drawGen n).iirMode = s.iirMode := rfl
@[simp] theorem State.drawGen_runst (s : State) (n : Nat) : (s.drawGen n).runst = s.runst := rfl
@[simp] theorem State.drawGen_cause (s : State) (n : Nat) : (s.drawGen n).cause = s.cause := rfl
@[simp] theorem State.drawGen_info (s : State) (n : Nat) : (s.drawGen n).info = s.info := rfl
@[simp] theorem State.drawGen_acqBuf (s : State) (n : Nat) : (s.drawGen n).acqBuf = s.acqBuf := rfl
@[simp] theorem State.drawGen_genBuf (s : State) (n : Nat) : (s.drawGen n).genBuf = s.genBuf := rfl
@[simp] theorem State.drawGen_config (s : State) (n : Nat) : (s.drawGen n).config = s.config := rfl
@[simp] theorem State.drawGen_port (s : State) (n : Nat) : (s.drawGen n).port = s.port := rfl
@[simp] theorem State.drawGen_output (s : State) (n : Nat) : (s.drawGen n).output = s.output := rfl
@[simp] theorem State.drawGen_freeAcq (s : State) (n : Nat) : (s.drawGen n).freeAcq = s.freeAcq := rfl
@[simp] theorem State.drawGen_freeGen (s : State) (n : Nat) : (s.drawGen n).freeGen = s.freeGen + n := rfl
@[simp] theorem State.drawGen_freeTurn (s : State) (n : Nat) : (s.drawGen n).freeTurn = s.freeTurn := rfl

/-! ### `takeHalt` -/

@[simp] theorem State.takeHalt_acq (s : State) (c : Cause) (w : EventWord) : (s.takeHalt c w).acq = s.acq := rfl
@[simp] theorem State.takeHalt_lmf (s : State) (c : Cause) (w : EventWord) : (s.takeHalt c w).lmf = s.lmf := rfl
@[simp] theorem State.takeHalt_lmi (s : State) (c : Cause) (w : EventWord) : (s.takeHalt c w).lmi = s.lmi := rfl
@[simp] theorem State.takeHalt_iirs (s : State) (c : Cause) (w : EventWord) : (s.takeHalt c w).iirs = s.iirs := rfl
@[simp] theorem State.takeHalt_out0 (s : State) (c : Cause) (w : EventWord) : (s.takeHalt c w).out0 = s.out0 := rfl
@[simp] theorem State.takeHalt_out1 (s : State) (c : Cause) (w : EventWord) : (s.takeHalt c w).out1 = s.out1 := rfl
@[simp] theorem State.takeHalt_gen (s : State) (c : Cause) (w : EventWord) : (s.takeHalt c w).gen = s.gen := rfl
@[simp] theorem State.takeHalt_modu (s : State) (c : Cause) (w : EventWord) : (s.takeHalt c w).modu = s.modu := rfl
@[simp] theorem State.takeHalt_tidx (s : State) (c : Cause) (w : EventWord) : (s.takeHalt c w).tidx = s.tidx := rfl
@[simp] theorem State.takeHalt_t (s : State) (c : Cause) (w : EventWord) : (s.takeHalt c w).t = s.t := rfl
@[simp] theorem State.takeHalt_firMode (s : State) (c : Cause) (w : EventWord) : (s.takeHalt c w).firMode = s.firMode := rfl
@[simp] theorem State.takeHalt_iirMode (s : State) (c : Cause) (w : EventWord) : (s.takeHalt c w).iirMode = s.iirMode := rfl
@[simp] theorem State.takeHalt_runst (s : State) (c : Cause) (w : EventWord) : (s.takeHalt c w).runst = .halt := rfl
@[simp] theorem State.takeHalt_cause (s : State) (c : Cause) (w : EventWord) : (s.takeHalt c w).cause = c := rfl
@[simp] theorem State.takeHalt_info (s : State) (c : Cause) (w : EventWord) : (s.takeHalt c w).info = w := rfl
@[simp] theorem State.takeHalt_acqBuf (s : State) (c : Cause) (w : EventWord) : (s.takeHalt c w).acqBuf = s.acqBuf := rfl
@[simp] theorem State.takeHalt_genBuf (s : State) (c : Cause) (w : EventWord) : (s.takeHalt c w).genBuf = s.genBuf := rfl
@[simp] theorem State.takeHalt_config (s : State) (c : Cause) (w : EventWord) : (s.takeHalt c w).config = s.config := rfl
@[simp] theorem State.takeHalt_port (s : State) (c : Cause) (w : EventWord) : (s.takeHalt c w).port = s.port := rfl
@[simp] theorem State.takeHalt_output (s : State) (c : Cause) (w : EventWord) : (s.takeHalt c w).output = .diagnostic c w := rfl
@[simp] theorem State.takeHalt_freeAcq (s : State) (c : Cause) (w : EventWord) : (s.takeHalt c w).freeAcq = s.freeAcq := rfl
@[simp] theorem State.takeHalt_freeGen (s : State) (c : Cause) (w : EventWord) : (s.takeHalt c w).freeGen = s.freeGen := rfl
@[simp] theorem State.takeHalt_freeTurn (s : State) (c : Cause) (w : EventWord) : (s.takeHalt c w).freeTurn = s.freeTurn := rfl

/-! ### `restart` -/

@[simp] theorem State.restart_acq (s : State) : s.restart.acq = State.reset.acq := rfl
@[simp] theorem State.restart_lmf (s : State) : s.restart.lmf = State.reset.lmf := rfl
@[simp] theorem State.restart_lmi (s : State) : s.restart.lmi = State.reset.lmi := rfl
@[simp] theorem State.restart_iirs (s : State) : s.restart.iirs = State.reset.iirs := rfl
@[simp] theorem State.restart_out0 (s : State) : s.restart.out0 = State.reset.out0 := rfl
@[simp] theorem State.restart_out1 (s : State) : s.restart.out1 = State.reset.out1 := rfl
@[simp] theorem State.restart_gen (s : State) : s.restart.gen = State.reset.gen := rfl
@[simp] theorem State.restart_modu (s : State) : s.restart.modu = State.reset.modu := rfl
@[simp] theorem State.restart_tidx (s : State) : s.restart.tidx = State.reset.tidx := rfl
@[simp] theorem State.restart_t (s : State) : s.restart.t = State.reset.t := rfl
@[simp] theorem State.restart_firMode (s : State) : s.restart.firMode = State.reset.firMode := rfl
@[simp] theorem State.restart_iirMode (s : State) : s.restart.iirMode = State.reset.iirMode := rfl
@[simp] theorem State.restart_runst (s : State) : s.restart.runst = State.reset.runst := rfl
@[simp] theorem State.restart_cause (s : State) : s.restart.cause = State.reset.cause := rfl
@[simp] theorem State.restart_info (s : State) : s.restart.info = State.reset.info := rfl
@[simp] theorem State.restart_acqBuf (s : State) : s.restart.acqBuf = State.reset.acqBuf := rfl
@[simp] theorem State.restart_genBuf (s : State) : s.restart.genBuf = State.reset.genBuf := rfl
@[simp] theorem State.restart_config (s : State) : s.restart.config = s.config := rfl
@[simp] theorem State.restart_port (s : State) : s.restart.port = s.port := rfl
@[simp] theorem State.restart_output (s : State) : s.restart.output = State.reset.output := rfl
@[simp] theorem State.restart_freeAcq (s : State) : s.restart.freeAcq = s.freeAcq := rfl
@[simp] theorem State.restart_freeGen (s : State) : s.restart.freeGen = s.freeGen := rfl
@[simp] theorem State.restart_freeTurn (s : State) : s.restart.freeTurn = s.freeTurn := rfl

/-! ### The bits of an Exchange -/

@[simp] theorem Exchange.complete_ct (x : Exchange) : x.complete.ct = ~~~x.ct := rfl
@[simp] theorem Exchange.complete_pend (x : Exchange) : x.complete.pend = true := rfl
@[simp] theorem Exchange.complete_busy (x : Exchange) : x.complete.busy = x.busy := rfl
@[simp] theorem Exchange.complete_cur (x : Exchange) : x.complete.cur = x.cur := rfl
@[simp] theorem Exchange.complete_drop (x : Exchange) : x.complete.drop = (x.drop || (x.pend || x.busy)) := rfl
@[simp] theorem Exchange.complete_torn (x : Exchange) : x.complete.torn = (x.torn || x.busy) := rfl
@[simp] theorem Exchange.accept_ct (x : Exchange) : x.accept.ct = x.ct := rfl
@[simp] theorem Exchange.accept_pend (x : Exchange) : x.accept.pend = false := rfl
@[simp] theorem Exchange.accept_busy (x : Exchange) : x.accept.busy = true := rfl
@[simp] theorem Exchange.accept_cur (x : Exchange) : x.accept.cur = ~~~x.ct := rfl
@[simp] theorem Exchange.accept_drop (x : Exchange) : x.accept.drop = x.drop := rfl
@[simp] theorem Exchange.accept_torn (x : Exchange) : x.accept.torn = x.torn := rfl
@[simp] theorem Exchange.finish_ct (x : Exchange) : x.finish.ct = x.ct := rfl
@[simp] theorem Exchange.finish_pend (x : Exchange) : x.finish.pend = x.pend := rfl
@[simp] theorem Exchange.finish_busy (x : Exchange) : x.finish.busy = false := rfl
@[simp] theorem Exchange.finish_cur (x : Exchange) : x.finish.cur = x.cur := rfl
@[simp] theorem Exchange.finish_drop (x : Exchange) : x.finish.drop = x.drop := rfl
@[simp] theorem Exchange.finish_torn (x : Exchange) : x.finish.torn = false := rfl
@[simp] theorem Exchange.rearm_ct (x : Exchange) : x.rearm.ct = 0 := rfl
@[simp] theorem Exchange.rearm_pend (x : Exchange) : x.rearm.pend = false := rfl
@[simp] theorem Exchange.rearm_busy (x : Exchange) : x.rearm.busy = x.busy := rfl
@[simp] theorem Exchange.rearm_cur (x : Exchange) : x.rearm.cur = x.cur := rfl
@[simp] theorem Exchange.rearm_drop (x : Exchange) : x.rearm.drop = true := rfl
@[simp] theorem Exchange.rearm_torn (x : Exchange) : x.rearm.torn = (x.torn || x.busy) := rfl

/-! ### The history -/

@[simp] theorem History.insert_h0 (h : History) (x0 : Sample) : (h.insert x0).h0 = x0 := rfl
@[simp] theorem History.insert_h1 (h : History) (x0 : Sample) : (h.insert x0).h1 = h.h0 := rfl
@[simp] theorem History.insert_h2 (h : History) (x0 : Sample) : (h.insert x0).h2 = h.h1 := rfl
@[simp] theorem History.insert_h3 (h : History) (x0 : Sample) : (h.insert x0).h3 = h.h2 := rfl
@[simp] theorem History.insert_h4 (h : History) (x0 : Sample) : (h.insert x0).h4 = h.h3 := rfl

end Sys2Proof.Machine
end

