-- ==== Sys2Proof/Laws/Gates.lean ====
section
/-! SUPPORT. What the shared gates, the trap, the reset and the event port can do, each said once. -/

namespace Sys2Proof.Machine

/-- In `RUN` an external event has its effect. -/
theorem State.external_run {s : State} (h : s.runst = .run) (effect : State → State) :
    s.external effect = .next (effect s) := by
  simp [State.external, h]

/-- In `HALT` an external event changes nothing (R237). -/
theorem State.external_halt {s : State} (h : s.runst = .halt) (effect : State → State) :
    s.external effect = .next s.silent := by
  simp [State.external, h]

/-- If an external event answers a next state, it is one of these two. -/
theorem State.external_cases {s t : State} {effect : State → State} (h : s.external effect = .next t) :
    (s.runst = .run ∧ t = effect s) ∨ (s.runst = .halt ∧ t = s.silent) := by
  cases hr : s.runst with
  | run => rw [s.external_run hr] at h; exact .inl ⟨rfl, by simpa using h.symm⟩
  | halt => rw [s.external_halt hr] at h; exact .inr ⟨rfl, by simpa using h.symm⟩

/-- An enabled engine event has its effect. -/
theorem State.engine_enabled {s : State} {m : String} {e : Bool} (h : s.runst = .run) (he : e = true)
    (effect : State → Host.Outcome State Fault Refusal) : s.engine m e effect = effect s := by
  simp [State.engine, h, he]

/-- An engine event that is not enabled is refused (R215). -/
theorem State.engine_refused {s : State} {m : String} {e : Bool} (h : s.runst = .halt ∨ e = false)
    (effect : State → Host.Outcome State Fault Refusal) : s.engine m e effect = .refused (.notEnabled m) := by
  cases hr : s.runst with
  | halt => simp [State.engine, hr]
  | run =>
    cases e with
    | false => simp [State.engine, hr]
    | true => simp [hr] at h

/-- If an engine event answers a next state, it was enabled. -/
theorem State.engine_cases {s t : State} {m : String} {e : Bool} {effect : State → Host.Outcome State Fault Refusal}
    (h : s.engine m e effect = .next t) : s.runst = .run ∧ e = true ∧ effect s = .next t := by
  cases hr : s.runst with
  | halt => simp [State.engine, hr] at h
  | run =>
    cases e with
    | false => simp [State.engine, hr] at h
    | true => exact ⟨rfl, rfl, by simpa [State.engine, hr] using h⟩

/-- The event that is presented next is taken from the port. -/
theorem nextEvent_cons {s : State} {e : PortEvent} {rest : List PortEvent} (h : s.port = e :: rest) :
    nextEvent s = (e, s.withPort rest) := by
  simp [nextEvent, h]

/-- Where nothing is presented the CORE takes an event of its own (R220, R247). -/
theorem nextEvent_nil {s : State} (h : s.port = []) : nextEvent s = (encode (ownEvent s).1, (ownEvent s).2) := by
  simp [nextEvent, h]

/-- The acquisition event the engine offers is enabled, and it offers one wherever one is (R215). -/
theorem ownAcq_iff (s : State) (i : Instr) : ownAcq s = some i ↔ (i = .acqBegin ∨ i = .acqEnd) ∧ Enabled i s := by
  cases hr : s.runst <;> cases hb : s.acq.busy <;> cases hp : s.acq.pend <;> cases i <;> simp [ownAcq, Enabled, *]

/-- The generation event the engine offers is enabled, and it offers one wherever one is (R215). -/
theorem ownGen_iff (s : State) (i : Instr) : ownGen s = some i ↔ (i = .genBegin ∨ i = .genEnd) ∧ Enabled i s := by
  cases hr : s.runst <;> cases hb : s.gen.busy <;> cases hp : s.gen.pend <;> cases i <;> simp [ownGen, Enabled, *]

/-- What the CORE does of its own: it idles where the engine offers nothing, else it takes what a stream offers. -/
theorem ownEvent_cases (s : State) :
    (ownAcq s = none ∧ ownGen s = none ∧ ownEvent s = (.idle, s)) ∨
    ∃ i k, (ownAcq s = some i ∨ ownGen s = some i) ∧ ownEvent s = (i, s.withTurn k) := by
  have same : s.withTurn s.freeTurn = s := rfl
  unfold ownEvent
  split
  · exact .inl ⟨‹_›, ‹_›, rfl⟩
  · exact .inr ⟨_, s.freeTurn, .inl ‹_›, rfl⟩
  · exact .inr ⟨_, s.freeTurn, .inr ‹_›, rfl⟩
  · rename_i a g ha hg
    cases Config.freeTurn s.freeTurn with
    | true => exact .inr ⟨a, _, .inl ha, rfl⟩
    | false => exact .inr ⟨g, _, .inr hg, rfl⟩

/-- The next event leaves the state as it was, but for the port and the counter of free turns. -/
theorem nextEvent_state (s : State) : ∃ p k, (nextEvent s).2 = (s.withPort p).withTurn k := by
  cases h : s.port with
  | nil =>
    obtain ⟨_, _, ho⟩ | ⟨i, k, _, ho⟩ := ownEvent_cases s
    · exact ⟨s.port, s.freeTurn, by rw [nextEvent_nil h, ho]; rfl⟩
    · exact ⟨s.port, k, by rw [nextEvent_nil h, ho]; rfl⟩
  | cons e rest => exact ⟨rest, s.freeTurn, by rw [nextEvent_cons h]; rfl⟩

/-- What a rejected event can do: a reserved word is an external event, a payload that cannot be is refused. -/
theorem takeRejected_cases {r : Reject} {s t : State} (h : takeRejected r s = .next t) :
    ∃ w, r = .reserved w ∧
      ((s.runst = .run ∧ t = s.takeHalt .unexpectedInterrupt w) ∨ (s.runst = .halt ∧ t = s.silent)) := by
  cases r with
  | reserved w =>
    simp only [takeRejected, takeReserved] at h
    exact ⟨w, rfl, State.external_cases h⟩
  | badPayload => cases h

end Sys2Proof.Machine
end

