-- ==== Sys2Proof/Laws/Memory.lean ====
section
/-! SUPPORT. What the memory operations do: reading after a write, reading elsewhere, the canonical form. -/

namespace Sys2Proof.Machine

variable {w : Nat}

theorem Memory.read?_append (m1 m2 : Cells w) (a : Nat) :
    Memory.read? (m1 ++ m2) a = (Memory.read? m1 a).or (Memory.read? m2 a) := by
  induction m1 with
  | nil => simp [Memory.read?]
  | cons c rest ih =>
    by_cases h : c.1 = a <;> simp [Memory.read?, h, ih]

theorem Memory.read?_filter_of_true (p : Nat → Bool) (m : Cells w) (a : Nat) (ha : p a = true) :
    Memory.read? (m.filter (fun c => p c.1)) a = Memory.read? m a := by
  induction m with
  | nil => rfl
  | cons c rest ih =>
    by_cases hc : p c.1 = true
    · simp [Memory.read?, hc, ih]
    · have hne : c.1 ≠ a := fun h => hc (h ▸ ha)
      simp [Memory.read?, hc, ih, hne]

theorem Memory.read?_filter_of_false (p : Nat → Bool) (m : Cells w) (a : Nat) (ha : p a = false) :
    Memory.read? (m.filter (fun c => p c.1)) a = none := by
  induction m with
  | nil => rfl
  | cons c rest ih =>
    by_cases hc : p c.1 = true
    · have hne : c.1 ≠ a := by rintro rfl; simp [ha] at hc
      simp [Memory.read?, hc, ih, hne]
    · simp [hc, ih]

/-- No cell of `m` is outside the `n` elements from `base` on. -/
abbrev Memory.Within (m : Cells w) (base n : Nat) : Prop :=
  ∀ c ∈ m, base ≤ c.1 ∧ c.1 < base + n

theorem Memory.read?_of_not_mem (m : Cells w) (a : Nat) (h : ∀ c ∈ m, c.1 ≠ a) : Memory.read? m a = none := by
  induction m with
  | nil => rfl
  | cons c rest ih =>
    have hc : c.1 ≠ a := h c (by simp)
    simp [Memory.read?, hc, ih (fun d hd => h d (by simp [hd]))]

theorem Memory.read?_splice_inside (m new : Cells w) (base n a : Nat) (h1 : base ≤ a) (h2 : a < base + n) :
    Memory.read? (Memory.splice m base n new) a = Memory.read? new a := by
  unfold Memory.splice
  rw [Memory.read?_append, Memory.read?_append,
    Memory.read?_filter_of_false (fun b => decide (b < base)) m a (by simpa using h1),
    Memory.read?_filter_of_false (fun b => decide (base + n ≤ b)) m a (by simpa using h2)]
  simp

theorem Memory.read?_splice_outside (m new : Cells w) (base n a : Nat) (hnew : Memory.Within new base n)
    (h : a < base ∨ base + n ≤ a) :
    Memory.read? (Memory.splice m base n new) a = Memory.read? m a := by
  unfold Memory.splice
  rw [Memory.read?_append, Memory.read?_append,
    Memory.read?_of_not_mem new a (fun c hc => by have := hnew c hc; omega)]
  rcases h with h | h
  · rw [Memory.read?_filter_of_true (fun b => decide (b < base)) m a (by simpa using h),
      Memory.read?_filter_of_false (fun b => decide (base + n ≤ b)) m a (by simp; omega)]
    simp
  · rw [Memory.read?_filter_of_false (fun b => decide (b < base)) m a (by simp; omega),
      Memory.read?_filter_of_true (fun b => decide (base + n ≤ b)) m a (by simpa using h)]
    simp

theorem Memory.cells_within (base : Nat) (vs : List (BitVec w)) : Memory.Within (Memory.cells base vs) base vs.length := by
  induction vs generalizing base with
  | nil => simp [Memory.cells]
  | cons v rest ih =>
    intro c hc
    simp only [Memory.cells, List.mem_cons] at hc
    rcases hc with rfl | hc
    · simp
    · have := ih (base + 1) c hc
      simp only [List.length_cons]; omega

theorem Memory.tornCells_within (choose : Nat → Bool) (m : Cells w) (base : Nat) (vs : List (BitVec w)) (k : Nat) :
    Memory.Within (Memory.tornCells choose m base vs k) base vs.length := by
  induction vs generalizing base k with
  | nil => simp [Memory.tornCells]
  | cons v rest ih =>
    have hrest : ∀ c ∈ Memory.tornCells choose m (base + 1) rest (k + 1),
        base ≤ c.1 ∧ c.1 < base + (v :: rest).length := by
      intro c hc
      have := ih (base + 1) (k + 1) c hc
      simp only [List.length_cons]; omega
    intro c hc
    simp only [Memory.tornCells] at hc
    split at hc
    · rcases List.mem_cons.mp hc with rfl | hc
      · simp
      · exact hrest c hc
    · exact hrest c hc

theorem Memory.read?_cells (base : Nat) (vs : List (BitVec w)) (i : Nat) :
    Memory.read? (Memory.cells base vs) (base + i) = vs[i]? := by
  induction vs generalizing base i with
  | nil => simp [Memory.cells, Memory.read?]
  | cons v rest ih =>
    cases i with
    | zero => simp [Memory.cells, Memory.read?]
    | succ j =>
      have := ih (base + 1) j
      simp only [Memory.cells, Memory.read?]
      rw [if_neg (by omega), show base + (j + 1) = base + 1 + j by omega, this]
      simp

/-- A torn write leaves in each element the new value or what it held (R179). -/
theorem Memory.read?_tornCells (choose : Nat → Bool) (m : Cells w) (base : Nat) (vs : List (BitVec w)) (k i : Nat)
    (hi : i < vs.length) :
    Memory.read? (Memory.tornCells choose m base vs k) (base + i) =
      if choose (k + i) then vs[i]? else Memory.read? m (base + i) := by
  induction vs generalizing base k i with
  | nil => simp at hi
  | cons v rest ih =>
    have out : Memory.read? (Memory.tornCells choose m (base + 1) rest (k + 1)) base = none :=
      Memory.read?_of_not_mem _ _ (fun c hc => by
        have := Memory.tornCells_within choose m (base + 1) rest (k + 1) c hc; omega)
    cases i with
    | zero =>
      simp only [Memory.tornCells, Nat.add_zero]
      split
      · rename_i u hu
        simp [Memory.read?, ← hu]
      · rename_i hu
        rw [out]; simp [← hu]
    | succ j =>
      have step := ih (base + 1) (k + 1) j (by simpa using hi)
      rw [show base + 1 + j = base + (j + 1) by omega, show k + 1 + j = k + (j + 1) by omega] at step
      simp only [Memory.tornCells]
      split
      · simp only [Memory.read?]
        rw [if_neg (by omega), step]; simp
      · rw [step]; simp

/-- Reading back what `MemWrite` wrote (R75). -/
theorem Memory.read?_write_inside (m : Cells w) (base : Nat) (vs : List (BitVec w)) (i : Nat) (hi : i < vs.length) :
    Memory.read? (Memory.write m base vs) (base + i) = vs[i]? := by
  unfold Memory.write
  rw [Memory.read?_splice_inside m _ base vs.length (base + i) (by omega) (by omega), Memory.read?_cells]

/-- `MemWrite` leaves every other element alone. -/
theorem Memory.read?_write_outside (m : Cells w) (base : Nat) (vs : List (BitVec w)) (a : Nat)
    (h : a < base ∨ base + vs.length ≤ a) : Memory.read? (Memory.write m base vs) a = Memory.read? m a :=
  Memory.read?_splice_outside m _ base vs.length a (Memory.cells_within base vs) h

theorem Memory.read?_tornWrite_inside (choose : Nat → Bool) (m : Cells w) (base : Nat) (vs : List (BitVec w)) (k i : Nat)
    (hi : i < vs.length) :
    Memory.read? (Memory.tornWrite choose m base vs k) (base + i) =
      if choose (k + i) then vs[i]? else Memory.read? m (base + i) := by
  unfold Memory.tornWrite
  rw [Memory.read?_splice_inside m _ base vs.length (base + i) (by omega) (by omega),
    Memory.read?_tornCells choose m base vs k i hi]

theorem Memory.read?_tornWrite_outside (choose : Nat → Bool) (m : Cells w) (base : Nat) (vs : List (BitVec w)) (k a : Nat)
    (h : a < base ∨ base + vs.length ≤ a) :
    Memory.read? (Memory.tornWrite choose m base vs k) a = Memory.read? m a :=
  Memory.read?_splice_outside m _ base vs.length a (Memory.tornCells_within choose m base vs k) h

theorem Memory.cells_rising (base : Nat) (vs : List (BitVec w)) :
    ((Memory.cells base vs).map Prod.fst).Pairwise (· < ·) := by
  induction vs generalizing base with
  | nil => simp [Memory.cells]
  | cons v rest ih =>
    simp only [Memory.cells, List.map_cons, List.pairwise_cons]
    refine ⟨fun a ha => ?_, ih (base + 1)⟩
    obtain ⟨c, hc, rfl⟩ := List.mem_map.mp ha
    have := Memory.cells_within (base + 1) rest c hc
    omega

theorem Memory.tornCells_rising (choose : Nat → Bool) (m : Cells w) (base : Nat) (vs : List (BitVec w)) (k : Nat) :
    ((Memory.tornCells choose m base vs k).map Prod.fst).Pairwise (· < ·) := by
  induction vs generalizing base k with
  | nil => simp [Memory.tornCells]
  | cons v rest ih =>
    simp only [Memory.tornCells]
    split
    · simp only [List.map_cons, List.pairwise_cons]
      refine ⟨fun a ha => ?_, ih (base + 1) (k + 1)⟩
      obtain ⟨c, hc, rfl⟩ := List.mem_map.mp ha
      have := Memory.tornCells_within choose m (base + 1) rest (k + 1) c hc
      omega
    · exact ih (base + 1) (k + 1)

/-- Replacing a block by rising cells of that block keeps the canonical form. -/
theorem Memory.wf_splice (size : Nat) (m new : Cells w) (base n : Nat) (hm : Memory.wf size m)
    (hnew : Memory.Within new base n) (hrise : (new.map Prod.fst).Pairwise (· < ·)) (hin : base + n ≤ size) :
    Memory.wf size (Memory.splice m base n new) := by
  obtain ⟨hp, hb⟩ := hm
  have sub : ∀ p : Nat × BitVec w → Bool, ((m.filter p).map Prod.fst).Pairwise (· < ·) := fun p =>
    hp.sublist (List.filter_sublist.map Prod.fst)
  refine ⟨?_, ?_⟩
  · unfold Memory.splice
    simp only [List.map_append, List.pairwise_append, List.mem_append]
    refine ⟨⟨sub _, hrise, ?_⟩, sub _, ?_⟩
    · intro a ha b hb'
      obtain ⟨c, hc, rfl⟩ := List.mem_map.mp ha
      obtain ⟨d, hd, rfl⟩ := List.mem_map.mp hb'
      have := hnew d hd
      have := (List.mem_filter.mp hc).2
      simp only [decide_eq_true_eq] at this
      omega
    · intro a ha b hb'
      obtain ⟨d, hd, rfl⟩ := List.mem_map.mp hb'
      have hd' := (List.mem_filter.mp hd).2
      simp only [decide_eq_true_eq] at hd'
      rcases ha with ha | ha
      · obtain ⟨c, hc, rfl⟩ := List.mem_map.mp ha
        have hc' := (List.mem_filter.mp hc).2
        simp only [decide_eq_true_eq] at hc'
        omega
      · obtain ⟨c, hc, rfl⟩ := List.mem_map.mp ha
        have := hnew c hc
        omega
  · intro c hc
    simp only [Memory.splice, List.mem_append] at hc
    rcases hc with (hc | hc) | hc
    · exact hb c (List.mem_filter.mp hc).1
    · have := hnew c hc; omega
    · exact hb c (List.mem_filter.mp hc).1

/-- `MemWrite` keeps the canonical form. -/
theorem Memory.wf_write (size : Nat) (m : Cells w) (base : Nat) (vs : List (BitVec w)) (hm : Memory.wf size m)
    (hin : base + vs.length ≤ size) : Memory.wf size (Memory.write m base vs) :=
  Memory.wf_splice size m _ base vs.length hm (Memory.cells_within base vs) (Memory.cells_rising base vs) hin

/-- The torn write keeps the canonical form. -/
theorem Memory.wf_tornWrite (size : Nat) (choose : Nat → Bool) (m : Cells w) (base : Nat) (vs : List (BitVec w)) (k : Nat)
    (hm : Memory.wf size m) (hin : base + vs.length ≤ size) : Memory.wf size (Memory.tornWrite choose m base vs k) :=
  Memory.wf_splice size m _ base vs.length hm (Memory.tornCells_within choose m base vs k)
    (Memory.tornCells_rising choose m base vs k) hin

/-- The memories of the reset state have the canonical form. -/
theorem Memory.wf_reset : Memory.wf 32 State.reset.acqBuf ∧ Memory.wf 512 State.reset.genBuf := by
  simp [State.reset, Memory.wf]

@[simp] theorem Memory.length_read (free : Nat → BitVec w) (m : Cells w) (base n k : Nat) :
    (Memory.read free m base n k).length = n := by
  induction n generalizing base k with
  | zero => rfl
  | succ n ih => simp [Memory.read, ih]

@[simp] theorem Memory.length_freeValues (free : Nat → BitVec w) (n k : Nat) :
    (Memory.freeValues free n k).length = n := by
  induction n generalizing k with
  | zero => rfl
  | succ n ih => simp [Memory.freeValues, ih]

/-- What `MemRead` gives: the element's value, or a free value where nothing has written it. -/
theorem Memory.getElem?_read (free : Nat → BitVec w) (m : Cells w) (base n k i : Nat) (hi : i < n) :
    (Memory.read free m base n k)[i]? = some ((Memory.read? m (base + i)).getD (free (k + i))) := by
  induction n generalizing base k i with
  | zero => omega
  | succ n ih =>
    cases i with
    | zero => simp [Memory.read]
    | succ j =>
      have := ih (base + 1) (k + 1) j (by omega)
      rw [show base + 1 + j = base + (j + 1) by omega, show k + 1 + j = k + (j + 1) by omega] at this
      simpa [Memory.read] using this

theorem Memory.getElem?_freeValues (free : Nat → BitVec w) (n k i : Nat) (hi : i < n) :
    (Memory.freeValues free n k)[i]? = some (free (k + i)) := by
  induction n generalizing k i with
  | zero => omega
  | succ n ih =>
    cases i with
    | zero => simp [Memory.freeValues]
    | succ j =>
      have := ih (k + 1) j (by omega)
      rw [show k + 1 + j = k + (j + 1) by omega] at this
      simpa [Memory.freeValues] using this

/-- The two acquisition buffers lie inside the space. -/
theorem acqBase_bound (b : BitVec 1) : acqBase b + nAcq ≤ 32 := by
  have := b.isLt
  simp only [acqBase, nAcq]; omega

/-- The two generation buffers lie inside the space. -/
theorem genBase_bound (b : BitVec 1) : genBase b + nGen ≤ 512 := by
  have := b.isLt
  simp only [genBase, nGen]; omega

end Sys2Proof.Machine
end

