-- ==== Sys2Proof/Laws/Exec.lean ====
section
/-! SUPPORT. What each event can do: if `exec` answers a next state, then this is it. -/

namespace Sys2Proof.Machine

/-- `GEN.END`, inverted: the modulation run succeeded and its result is what the next state holds. -/
theorem genEndEffect_cases {s t : State} (h : genEndEffect s = .next t) :
    ∃ m v, modRun nGen (s.config.table s.tidx) s.modu = .ok (m, v) ∧
      t = (((((s.withModulator m).withGenBuf (serviceWrite s v)).withTidx (nextBank nTab s.tidx)).withGen
        s.gen.finish).drawGen nGen).silent := by
  unfold genEndEffect at h
  split at h
  · cases h
  · rename_i m v hv
    exact ⟨m, v, hv, by simpa using h.symm⟩

/-- `ACQ.END`, inverted: the filter run succeeded and its result is what the next state holds. -/
theorem acqEndEffect_cases {s t : State} (h : acqEndEffect s = .next t) :
    ∃ file y0 y1, runFilter s.config (serviceSamples s) s.lmf s.lmi s.iirs = .ok (file, y0, y1) ∧
      t = (((s.withFiltered file y0 y1).withAcq s.acq.finish).drawAcq nAcq).withOutput (.strobe y0 y1) := by
  unfold acqEndEffect at h
  split at h
  · cases h
  · rename_i file y0 y1 hv
    exact ⟨file, y0, y1, hv, by simpa using h.symm⟩

/-- Everything an event can do, constructor by constructor. -/
def EventCases (s t : State) (i : Instr) : Prop :=
  match i with
  | .idle => t = s.silent
  | .acqDone data => data.length = nAcq ∧
      ((s.runst = .run ∧ t = acqDoneEffect data s) ∨ (s.runst = .halt ∧ t = s.silent))
  | .acqBegin => s.runst = .run ∧ s.acq.canBegin = true ∧ t = acqBeginEffect s
  | .acqEnd => s.runst = .run ∧ s.acq.busy = true ∧
      ∃ file y0 y1, runFilter s.config (serviceSamples s) s.lmf s.lmi s.iirs = .ok (file, y0, y1) ∧
        t = (((s.withFiltered file y0 y1).withAcq s.acq.finish).drawAcq nAcq).withOutput (.strobe y0 y1)
  | .acqErr => (s.runst = .run ∧ t = acqErrEffect s) ∨ (s.runst = .halt ∧ t = s.silent)
  | .genDone => (s.runst = .run ∧ t = genDoneEffect s) ∨ (s.runst = .halt ∧ t = s.silent)
  | .genBegin => s.runst = .run ∧ s.gen.canBegin = true ∧ t = genBeginEffect s
  | .genEnd => s.runst = .run ∧ s.gen.busy = true ∧
      ∃ m v, modRun nGen (s.config.table s.tidx) s.modu = .ok (m, v) ∧
        t = (((((s.withModulator m).withGenBuf (serviceWrite s v)).withTidx (nextBank nTab s.tidx)).withGen
          s.gen.finish).drawGen nGen).silent
  | .genErr => (s.runst = .run ∧ t = genErrEffect s) ∨ (s.runst = .halt ∧ t = s.silent)
  | .tick level => (s.runst = .run ∧ t = tickEffect level s) ∨ (s.runst = .halt ∧ t = s.silent)
  | .cfgf => (s.runst = .run ∧ t = s.takeHalt .configurationFault 0xA0) ∨ (s.runst = .halt ∧ t = s.silent)
  | .rst => t = s.restart

/-- The inversion of `exec`. -/
theorem exec_cases {i : Instr} {s t : State} (h : exec i s = .next t) : EventCases s t i := by
  cases i with
  | idle => simpa [EventCases, exec, execIdle] using h.symm
  | acqDone data =>
    simp only [exec, execAcqDone] at h
    split at h
    · exact ⟨‹_›, State.external_cases h⟩
    · cases h
  | acqBegin =>
    simp only [exec, execAcqBegin] at h
    obtain ⟨hr, he, ht⟩ := State.engine_cases h
    exact ⟨hr, he, by simpa using ht.symm⟩
  | acqEnd =>
    obtain ⟨hr, he, ht⟩ := State.engine_cases h
    exact ⟨hr, he, acqEndEffect_cases ht⟩
  | acqErr => exact State.external_cases h
  | genDone => exact State.external_cases h
  | genBegin =>
    simp only [exec, execGenBegin] at h
    obtain ⟨hr, he, ht⟩ := State.engine_cases h
    exact ⟨hr, he, by simpa using ht.symm⟩
  | genEnd =>
    obtain ⟨hr, he, ht⟩ := State.engine_cases h
    exact ⟨hr, he, genEndEffect_cases ht⟩
  | genErr => exact State.external_cases h
  | tick level => exact State.external_cases h
  | cfgf =>
    simp only [exec, execCfgf] at h
    exact State.external_cases h
  | rst => simpa [EventCases, exec, execRst] using h.symm

/-- The inversion of `applyEvent`: an event of the table, or a reserved word. -/
theorem applyEvent_cases {e : PortEvent} {s t : State} (h : applyEvent e s = .next t) :
    (∃ i, decode e = .ok i ∧ EventCases s t i) ∨
    (∃ w, decode e = .error (.reserved w) ∧
      ((s.runst = .run ∧ t = s.takeHalt .unexpectedInterrupt w) ∨ (s.runst = .halt ∧ t = s.silent))) := by
  unfold applyEvent at h
  split at h
  · rename_i i hi
    exact .inl ⟨i, hi, exec_cases h⟩
  · rename_i r hr
    obtain ⟨w, rfl, hw⟩ := takeRejected_cases h
    exact .inr ⟨w, hr, hw⟩

/-- The inversion of `step`: the next event is taken, and applied to the state it leaves. -/
theorem step_cases {s t : State} (h : step s = .next t) :
    ∃ p k, (nextEvent s).2 = (s.withPort p).withTurn k ∧ applyEvent (nextEvent s).1 ((s.withPort p).withTurn k) = .next t := by
  obtain ⟨p, k, hp⟩ := nextEvent_state s
  exact ⟨p, k, hp, by rw [← hp]; exact h⟩

end Sys2Proof.Machine
end

