-- ==== Sys2Proof/Laws/Filter.lean ====
section
/-! SUPPORT. The micro-operations of the Filter Engine: what each answers when it answers. -/

namespace Sys2Proof.Machine

/-- The two outcomes of an accumulation. -/
theorem accumulate_cons (acc : Int) (x a : Sample) (xs as : List Sample) :
    accumulate acc (x :: xs) (a :: as) =
      if inAccumulator acc then accumulate (acc + x.toInt * a.toInt) xs as else .error .accRange := rfl

theorem accumulate_nil (acc : Int) :
    accumulate acc [] [] = if inAccumulator acc then .ok acc else .error .accRange := by
  simp [accumulate]

/-- A sum that is answered is the exact sum (R141, R142 (c)). -/
theorem accumulate_ok {acc r : Int} {x a : List Sample} (hl : x.length = a.length) (h : accumulate acc x a = .ok r) :
    r = acc + ((x.zip a).map (fun p => p.1.toInt * p.2.toInt)).sum := by
  induction x generalizing acc a with
  | nil =>
    cases a with
    | nil =>
      rw [accumulate_nil] at h
      split at h
      · simpa using h.symm
      · cases h
    | cons b bs => simp at hl
  | cons y ys ih =>
    cases a with
    | nil => simp at hl
    | cons b bs =>
      rw [accumulate_cons] at h
      split at h
      · have := ih (by simpa using hl) h
        simp only [List.zip_cons_cons, List.map_cons, List.sum_cons]
        omega
      · cases h

/-- `smacc` fails only with `AccRange` (R141). -/
theorem accumulate_error {acc : Int} {x a : List Sample} {f : Fault} (h : accumulate acc x a = .error f) :
    f = .accRange := by
  induction x generalizing acc a with
  | nil =>
    unfold accumulate at h
    split at h
    · cases h
    · simpa using h.symm
  | cons y ys ih =>
    cases a with
    | nil =>
      unfold accumulate at h
      split at h
      · cases h
      · simpa using h.symm
    | cons b bs =>
      rw [accumulate_cons] at h
      split at h
      · exact ih h
      · simpa using h.symm

/-- What `smacc` answers, when it answers (R141). -/
theorem smacc_ok {y0 r : Sample} {x a : List Sample} {s : ShiftField} (hl : x.length = a.length)
    (h : smacc y0 x a s = .ok r) :
    r = narrow (asr (lsl y0.toInt s.toNat + ((x.zip a).map (fun p => p.1.toInt * p.2.toInt)).sum) s.toNat) := by
  unfold smacc at h
  cases hs : accumulate (lsl y0.toInt s.toNat) x a with
  | error f => rw [hs] at h; simp [Except.map] at h
  | ok sum =>
    rw [hs] at h
    rw [← accumulate_ok hl hs]
    simpa [Except.map] using h.symm

/-- `clamp` answers a value of the range. -/
theorem clamp_bounds (v lo hi : Int) (h : lo ≤ hi) : lo ≤ clamp v lo hi ∧ clamp v lo hi ≤ hi := by
  unfold clamp
  split
  · omega
  · split <;> omega

/-- Narrowing stores exactly the clamped value (R142 (e)). -/
theorem narrow_toInt (v : Int) : (narrow v).toInt = clamp v (-32768) 32767 := by
  have := clamp_bounds v (-32768) 32767 (by omega)
  rw [narrow, BitVec.toInt_ofInt_eq_self (by omega) (by simpa using this.1) (by simp; omega)]

/-- What `iir_update` leaves and answers (R150). -/
theorem iirWith_ok {r : IirRecord} {h h' : History} {x0 y : Sample} (e : iirWith r h x0 = .ok (h', y)) :
    smacc 0 (h.insert x0).slots r.coefficients r.shift = .ok y ∧
      h' = { h0 := x0, h1 := h.h0, h2 := y, h3 := h.h2, h4 := h.h3 } := by
  unfold iirWith at e
  cases hs : smacc 0 (h.insert x0).slots r.coefficients r.shift with
  | error f => rw [hs] at e; simp [Except.map] at e
  | ok v =>
    rw [hs] at e
    simp only [Except.map, Except.ok.injEq, Prod.mk.injEq] at e
    obtain ⟨e1, e2⟩ := e
    subst e2
    exact ⟨rfl, by rw [← e1]; rfl⟩

/-- The cascade of a channel, inverted (R155). -/
theorem runCascade_ok {c : Config} {x : List Sample} {f : Fin nbFir} {i : Fin nbIir} {ch : Channel} {k k' : Cascade}
    {y : Sample} (e : runCascade c x f i ch k = .ok (k', y)) :
    ∃ v g, firApply c x f ch = .ok v ∧ iirUpdate c k.sec0 v i = .ok (k'.sec0, g) ∧
      iirUpdate c k.sec1 g i = .ok (k'.sec1, y) := by
  unfold runCascade at e
  cases h1 : firApply c x f ch with
  | error f' => simp [h1, bind, Except.bind] at e
  | ok v =>
    cases h2 : iirUpdate c k.sec0 v i with
    | error f' => simp [h1, h2, bind, Except.bind] at e
    | ok p =>
      cases h3 : iirUpdate c k.sec1 p.2 i with
      | error f' => simp [h1, h2, h3, bind, Except.bind] at e
      | ok q =>
        simp only [h1, h2, h3, bind, Except.bind, pure, Except.pure, Except.ok.injEq, Prod.mk.injEq] at e
        obtain ⟨rfl, rfl⟩ := e
        exact ⟨v, p.2, rfl, h2, h3⟩

/-- Both channels, inverted (R156 step 2). -/
theorem runFilter_ok {c : Config} {x : List Sample} {f : Fin nbFir} {i : Fin nbIir} {file file' : IirFile}
    {y0 y1 : Sample} (e : runFilter c x f i file = .ok (file', y0, y1)) :
    runCascade c x f i 0 file.ch0 = .ok (file'.ch0, y0) ∧ runCascade c x f i 1 file.ch1 = .ok (file'.ch1, y1) := by
  unfold runFilter at e
  cases h0 : runCascade c x f i 0 file.ch0 with
  | error f' => simp [h0, bind, Except.bind] at e
  | ok p =>
    cases h1 : runCascade c x f i 1 file.ch1 with
    | error f' => simp [h0, h1, bind, Except.bind] at e
    | ok q =>
      simp only [h0, h1, bind, Except.bind, pure, Except.pure, Except.ok.injEq, Prod.mk.injEq] at e
      obtain ⟨rfl, rfl, rfl⟩ := e
      exact ⟨rfl, rfl⟩

/-- A service always reads 16 samples, torn or not (R71, R157). -/
@[simp] theorem length_serviceSamples (s : State) : (serviceSamples s).length = nAcq := by
  unfold serviceSamples
  split <;> simp

end Sys2Proof.Machine
end

