-- ==== Sys2Proof/Laws/NoiseShaper.lean ====
section
/-! SUPPORT. The micro-operations of the Noise-Shaping Modulator: what each answers when it answers. -/

namespace Sys2Proof.Machine

/-- A stage sum is its carry and the accumulator it leaves (R174 steps 3 to 5). -/
theorem carry_split (sum : Nat) (h : sum < 131072) : 65536 * carryBit sum + (BitVec.ofNat 16 sum).toNat = sum := by
  simp only [carryBit, BitVec.toNat_ofNat]
  omega

theorem carryBit_le (sum : Nat) : carryBit sum ≤ 1 := by
  unfold carryBit; omega

theorem stage1Sum_lt (mag : Magnitude) (m : Modulator) : stage1Sum mag m < 131072 := by
  have h1 := m.acc0.isLt
  have h2 := (magLow mag).isLt
  have h3 : (prbsBit m.lfsr).toNat ≤ 1 := Bool.toNat_le _
  unfold stage1Sum; omega

theorem stage2Sum_lt (mag : Magnitude) (m : Modulator) : stage2Sum mag m < 131072 := by
  have h1 := m.acc1.isLt
  have h2 := (BitVec.ofNat 16 (stage1Sum mag m)).isLt
  unfold stage2Sum; omega

theorem stage3Sum_lt (mag : Magnitude) (m : Modulator) : stage3Sum mag m < 131072 := by
  have h1 := m.acc2.isLt
  have h2 := (BitVec.ofNat 16 (stage2Sum mag m)).isLt
  unfold stage3Sum; omega

/-- `e2` lies in -1..2 (R175). -/
theorem carryDifference_bounds (mag : Magnitude) (m : Modulator) :
    -1 ≤ carryDifference mag m ∧ carryDifference mag m ≤ 2 := by
  have h2 := carryBit_le (stage2Sum mag m)
  have h3 := carryBit_le (stage3Sum mag m)
  have h0 := m.dc0.isLt
  unfold carryDifference; omega

/-- What `DC[1]` holds after a step is `e2` itself (R174 step 8). -/
theorem modNext_dc1 (mag : Magnitude) (m : Modulator) : (modNext mag m).dc1.toInt = carryDifference mag m := by
  have := carryDifference_bounds mag m
  simp only [modNext]
  rw [BitVec.toInt_ofInt_eq_self (by omega) (by simp; omega) (by simp; omega)]

/-- What `mod_step` answers, when it answers (R174). -/
theorem modStep_ok {mag : Magnitude} {m m' : Modulator} {y : GenSample} (h : modStep mag m = .ok (m', y)) :
    m' = modNext mag m ∧ (y.toNat : Int) = ((magHigh mag).toNat : Int) + correction mag m := by
  simp only [modStep] at h
  split at h
  · cases h
  · rename_i hr
    simp only [Except.ok.injEq, Prod.mk.injEq] at h
    obtain ⟨rfl, rfl⟩ := h
    refine ⟨rfl, ?_⟩
    rw [BitVec.toNat_ofInt]
    omega

/-- `mod_step` fails only with `ModRange` (R176). -/
theorem modStep_error {mag : Magnitude} {m : Modulator} {f : Fault} (h : modStep mag m = .error f) :
    f = .modRange ∧ (((magHigh mag).toNat : Int) + correction mag m < 0 ∨
      255 < ((magHigh mag).toNat : Int) + correction mag m) := by
  simp only [modStep] at h
  split at h
  · rename_i hr
    exact ⟨by simpa using h.symm, hr⟩
  · cases h

/-- One more step of a modulation run, inverted. -/
theorem modRun_succ_ok {n : Nat} {mag : Magnitude} {m m' : Modulator} {v : List GenSample}
    (h : modRun (n + 1) mag m = .ok (m', v)) :
    ∃ m1 y ys, modStep mag m = .ok (m1, y) ∧ modRun n mag m1 = .ok (m', ys) ∧ v = y :: ys := by
  simp only [modRun] at h
  cases h1 : modStep mag m with
  | error f => simp [h1, bind, Except.bind] at h
  | ok p =>
    cases h2 : modRun n mag p.1 with
    | error f => simp [h1, h2, bind, Except.bind] at h
    | ok q =>
      simp only [h1, h2, bind, Except.bind, pure, Except.pure, Except.ok.injEq, Prod.mk.injEq] at h
      obtain ⟨rfl, rfl⟩ := h
      exact ⟨p.1, p.2, q.2, rfl, h2, rfl⟩

/-- A modulation run answers as many samples as it has steps. -/
theorem modRun_length {n : Nat} {mag : Magnitude} {m m' : Modulator} {v : List GenSample}
    (h : modRun n mag m = .ok (m', v)) : v.length = n := by
  induction n generalizing m v with
  | zero =>
    simp only [modRun, Except.ok.injEq, Prod.mk.injEq] at h
    simp [← h.2]
  | succ n ih =>
    obtain ⟨m1, y, ys, -, h2, rfl⟩ := modRun_succ_ok h
    simp [ih h2]

/-- What a modulation run answers (R178 step 2): the outputs of its steps, in order. -/
theorem modRun_steps {n : Nat} {mag : Magnitude} {m m' : Modulator} {v : List GenSample}
    (h : modRun n mag m = .ok (m', v)) : ∃ r, r 0 = m ∧ r n = m' ∧ StepsInOrder mag r v n := by
  induction n generalizing m v with
  | zero =>
    simp only [modRun, Except.ok.injEq, Prod.mk.injEq] at h
    exact ⟨fun _ => m, rfl, h.1, by simp [StepsInOrder, ← h.2]⟩
  | succ n ih =>
    obtain ⟨m1, y, ys, h1, h2, rfl⟩ := modRun_succ_ok h
    obtain ⟨r, h0, hn, hl, hs⟩ := ih h2
    refine ⟨fun k => match k with | 0 => m | k + 1 => r k, rfl, hn, by simp [hl], fun k hk => ?_⟩
    cases k with
    | zero => exact ⟨y, by simp [h0, h1], rfl⟩
    | succ k =>
      obtain ⟨z, hz, hv⟩ := hs k (by omega)
      exact ⟨z, hz, by simpa using hv⟩

end Sys2Proof.Machine
end

