-- ==== Sys2Proof/Laws/PerInstr.lean ====
section
/-! SUPPORT. The families of laws stated once for each event. `EncodedWordSelectsItsRow`: the word the encoder writes for a
well-formed event selects the event's own row of the table (R92), and only `ACQ.DONE` carries a payload (R91). -/

namespace Sys2Proof.Laws

/-- `match` and `mask` of an event's row (R92). -/
def rowOf (i : Instr) : EventWord × EventWord :=
  match i with
  | .idle => (0x00, 0xFF)
  | .acqDone _ => (0x10, 0xFF)
  | .acqBegin => (0x20, 0xFF)
  | .acqEnd => (0x30, 0xFF)
  | .acqErr => (0x40, 0xFF)
  | .genDone => (0x50, 0xFF)
  | .genBegin => (0x60, 0xFF)
  | .genEnd => (0x70, 0xFF)
  | .genErr => (0x80, 0xFF)
  | .tick _ => (0x90, 0xFE)
  | .cfgf => (0xA0, 0xFF)
  | .rst => (0xFF, 0xFF)

namespace EncodedWordSelectsItsRow

/-- The encoded word selects the row of `i`, and the payload is there exactly for `ACQ.DONE`. -/
def Statement (i : Instr) : Prop :=
  i.WellFormed →
    (encode i).word &&& (rowOf i).2 = (rowOf i).1 ∧
    ((encode i).data = [] ∨ (encode i).word = 0x10 ∧ (encode i).data.length = nAcq)

theorem idle : Statement .idle := by intro _; decide
theorem acqDone (data : List Sample) : Statement (.acqDone data) := by
  intro h
  exact ⟨(by decide : (0x10 : EventWord) &&& 0xFF = 0x10), .inr ⟨rfl, of_decide_eq_true h⟩⟩
theorem acqBegin : Statement .acqBegin := by intro _; decide
theorem acqEnd : Statement .acqEnd := by intro _; decide
theorem acqErr : Statement .acqErr := by intro _; decide
theorem genDone : Statement .genDone := by intro _; decide
theorem genBegin : Statement .genBegin := by intro _; decide
theorem genEnd : Statement .genEnd := by intro _; decide
theorem genErr : Statement .genErr := by intro _; decide
theorem tick (level : Bool) : Statement (.tick level) := by intro _; cases level <;> decide
theorem cfgf : Statement .cfgf := by intro _; decide
theorem rst : Statement .rst := by intro _; decide

end EncodedWordSelectsItsRow

end Sys2Proof.Laws
end

