-- ==== Sys2Proof/Tests/Slice0.lean ====
section
/-! SUPPORT. Tests of the model on the vectors of spec/95_test_vectors.md, the smoke tests of well-formedness and decoding, and
for every statement with hypotheses a concrete state that meets them. -/

namespace Sys2Proof.Tests

open Sys2Proof Sys2Proof.Machine

/-! ### The test configuration CFG-T (95_test_vectors.md section 0) -/

def meanFir : FirRecord := ⟨.replicate 16 2048, 15, 0⟩
def newestFir : FirRecord := ⟨#v[0, 0, 0, 0, 0, 0, 0, 0, 0, 0, 0, 0, 0, 0, 0, 16384], 14, 0⟩
def constantFir : FirRecord := ⟨.replicate 16 0, 0, -5⟩
def identityIir : IirRecord := ⟨16384, 0, 0, 0, 0, 14⟩
def onePoleIir : IirRecord := ⟨4096, 0, 0, 12288, 0, 14⟩

def cfgT : Config :=
  { firCh0 := .replicate 4 newestFir
    firCh1 := #v[meanFir, constantFir, constantFir, constantFir, constantFir]
    iirBanks := #v[identityIir, onePoleIir, identityIir, identityIir, identityIir]
    tableRest := .replicate 35 0x800000
    tShortPred := 3
    tGap := 5 }

/-- The reset state with the test configuration. -/
def start : State := { State.reset with config := cfgT }

/-- `start` with the engine serving an acquisition buffer. -/
def servingA : State := { start with acq := { start.acq with ct := 1, busy := true } }

/-- `start` with the engine serving a generation buffer. -/
def servingG : State := { start with gen := { start.gen with ct := 1, busy := true } }

/-- `start`, halted. -/
def halted : State := { start with runst := .halt, cause := .unexpectedInterrupt, info := 0xB3 }

def bufC : List Sample := [100, 200, 300, 400, 500, 600, 700, 800, 900, 1000, 1100, 1200, 1300, 1400, 1500, 1600]
def zeros : List Sample := List.replicate 16 0

/-! ### Well-formedness and decoding -/

theorem test_illFormed_payload : ¬(Instr.acqDone [1, 2, 3]).WellFormed := by decide
theorem test_wellFormed_payload : (Instr.acqDone bufC).WellFormed := by decide

theorem test_decode_idle : decode ⟨0b00000000, []⟩ = .ok .idle := by decide
theorem test_decode_acqDone : decode ⟨0b00010000, bufC⟩ = .ok (.acqDone bufC) := by decide
theorem test_decode_acqBegin : decode ⟨0b00100000, []⟩ = .ok .acqBegin := by decide
theorem test_decode_acqEnd : decode ⟨0b00110000, []⟩ = .ok .acqEnd := by decide
theorem test_decode_acqErr : decode ⟨0b01000000, []⟩ = .ok .acqErr := by decide
theorem test_decode_genDone : decode ⟨0b01010000, []⟩ = .ok .genDone := by decide
theorem test_decode_genBegin : decode ⟨0b01100000, []⟩ = .ok .genBegin := by decide
theorem test_decode_genEnd : decode ⟨0b01110000, []⟩ = .ok .genEnd := by decide
theorem test_decode_genErr : decode ⟨0b10000000, []⟩ = .ok .genErr := by decide
theorem test_decode_tick_released : decode ⟨0b10010000, []⟩ = .ok (.tick false) := by decide
theorem test_decode_tick_pressed : decode ⟨0b10010001, []⟩ = .ok (.tick true) := by decide
theorem test_decode_cfgf : decode ⟨0b10100000, []⟩ = .ok .cfgf := by decide
theorem test_decode_rst : decode ⟨0b11111111, []⟩ = .ok .rst := by decide
theorem test_decode_badPayload : decode ⟨0x10, [1]⟩ = .error .badPayload := by decide
/-- H3: spot values of the reserved words. -/
theorem test_decode_reserved : ∀ w ∈ [0x01, 0x0F, 0x11, 0x92, 0x9F, 0xA1, 0xB0, 0xEF, 0xF0, 0xFE],
    decode ⟨w, zeros⟩ = .error (.reserved w) := by decide
theorem test_tableWord_tick : decodeTableWord 8 0x91 = some (.tick true) := by decide
theorem test_tableWord_acqDone : decodeTableWord 8 0x10 = some (.acqDone zeros) := by decide
theorem test_fetchWord_cfgf : (match step (State.reset.withFetchWord 8 0xA0) with
    | .next t => decide (t.runst = .halt ∧ t.info = 0xA0) | _ => false) = true := by decide

/-! ### The trace syntax -/

theorem test_readTrace_P4 : readTrace "PRESS 4 ; held\nACQ.BEGIN\n\nTICK 0\nACQ.END" =
    some [.tick true, .tick true, .tick true, .tick true, .acqBegin, .tick false, .acqEnd] := by decide
theorem test_readSample_forms : ["-1247", "0xFB21", "32767", "32768", "0xFFFFF"].map (fun t => readSample t.toList) =
    [some (-1247), some (-1247), some 32767, none, none] := by decide

/-! ### The Filter Engine (95_test_vectors.md section 2) -/

/-- S1, S2, S3, S13, S15. -/
theorem test_smacc_values :
    [smacc 5 [3] [7] 4, smacc (-5) [3] [7] 4, smacc 0 [-1] [1] 1, smacc 0 [32767, 1] [1, 1] 0, smacc 0 [32767, 1] [2, 1] 1] =
      [.ok 6, .ok (-4), .ok (-1), .ok 32767, .ok 32767] := by decide
/-- S10, S22: near the top of the accumulator, and a partial sum outside it. -/
theorem test_smacc_range :
    [smacc 32767 [32767] [32767] 15, smacc 0 [-32768, -32768, 32767] [-32768, -32768, -32768] 0] =
      [.ok 32767, .error .accRange] := by decide
/-- F8: floor, and the pairing of `buf[i]` with `taps[i]`. -/
theorem test_fir_pairs : firWith documentedFir [0, 0, 0, 0, 0, 0, 0, 0, 0, 0, 0, 0, 1, 0, 0, 0] = .ok (-2) := by decide
/-- I3, last call; I5. -/
theorem test_iir_single : iirWith ⟨1, 2, 3, 4, 5, 0⟩ ⟨10, 20, 30, 40, 50⟩ 7 = .ok (⟨7, 10, 407, 30, 40⟩, 407) := by decide
theorem test_iir_sequence : iirRun ⟨8192, -4096, 2048, 4096, -1024, 13⟩ History.reset [1000, 2000, -3000, 4000, 0, 0] =
    .ok (⟨0, 0, 343, -235, 4312⟩, [1000, 2000, -2875, 4312, -235, 343]) := by decide
/-- I11. -/
theorem test_iir_fault : iirWith ⟨-32768, -32768, -32768, 0, 0, 0⟩ ⟨-32768, -32768, 0, 0, 0⟩ (-32768) = .error .accRange := by
  decide
/-- X3: a dropped frame; the service gets the newest interval in bank 0. -/
theorem test_acqFrame_bank0 : (match runEvents (acqFrame bufC) start with
    | .next t => decide (t.out0 = -6400 ∧ t.out1 = 850 ∧ t.acq = ⟨1, false, false, 0, false, false⟩) | _ => false) = true := by
  decide

/-! ### The Noise-Shaping Modulator (section 3) -/

/-- G3. -/
theorem test_prbs_singles : [0x8000, 0x4000, 0x1000, 0x0008, 0xC000, 0xFFFF, 0xD008].map prbsNext =
    [0x0001, 0x8001, 0x2001, 0x0011, 0x8000, 0xFFFE, 0xA010] := by decide
/-- M1: the first 12 steps. -/
theorem test_mod_first12 : modRun 12 0xfae147 Modulator.reset =
    .ok (⟨0x1111, 0x8F57, 0xA3B1, 0x5131, 1, 1⟩, [250, 253, 249, 252, 250, 252, 249, 253, 250, 250, 252, 251]) := by decide
/-- M9: `ModRange` at step 1. -/
theorem test_mod_range : modRun 2 0xFFFFFF Modulator.reset = .error .modRange := by decide

/-! ### The Debounce Classifier (section 4) -/

/-- R193's worked examples. -/
theorem test_debounce_rows : [debTick cfgT false 4, debTick cfgT true 10, debTick cfgT false 11] =
    [(2, .short), (11, .long), (2, .none)] := by decide
/-- T8's wrap: `FIR_MODE` 4 goes to 0 (R194's worked example). -/
theorem test_tick_wraps : (match exec (.tick false) { start with t := 4, firMode := 4 } with
    | .next t => decide (t.t = 2 ∧ t.firMode = 0 ∧ t.output = .debounce .short) | _ => false) = true := by decide

/-! ### The Exchange and the dispatch (section 5) -/

/-- Scenario C, third event: the early completion. -/
theorem test_acqDone_torn : (match exec (.acqDone bufC) servingA with
    | .next t => decide (t.acq = ⟨0, true, true, 0, true, true⟩) | _ => false) = true := by decide
theorem test_acqBegin_latches : (match exec .acqBegin { start with acq := { start.acq with pend := true }, firMode := 3 } with
    | .next t => decide (t.acq = ⟨0, false, true, 1, false, false⟩ ∧ t.lmf = 3) | _ => false) = true := by decide
/-- X7, X8. -/
theorem test_acqErr_busy : (match exec .acqErr servingA with
    | .next t => decide (t.acq = ⟨0, false, true, 0, true, true⟩) | _ => false) = true := by decide
theorem test_genDone_flags : (match exec .genDone start with
    | .next t => decide (t.gen = ⟨1, true, false, 0, false, false⟩) | _ => false) = true := by decide
theorem test_genErr_idle : (match exec .genErr { start with gen := ⟨0, true, false, 0, false, false⟩ } with
    | .next t => decide (t.gen = ⟨0, false, false, 0, true, false⟩) | _ => false) = true := by decide
theorem test_genBegin : (match exec .genBegin { start with gen := ⟨1, true, false, 0, false, false⟩ } with
    | .next t => decide (t.gen = ⟨1, false, true, 0, false, false⟩) | _ => false) = true := by decide
/-- X10. -/
theorem test_notEnabled : [Instr.acqBegin, .acqEnd, .genBegin, .genEnd].map (fun i => match exec i start with
    | .refused r => some r | _ => none) =
      [some (.notEnabled "ACQ.BEGIN"), some (.notEnabled "ACQ.END"), some (.notEnabled "GEN.BEGIN"),
        some (.notEnabled "GEN.END")] := by decide
/-- R260's worked example. -/
theorem test_rst_leaves_halt : (match exec .rst { halted with t := 7, firMode := 3 } with
    | .next t => decide (t.runst = .run ∧ t.cause = .none ∧ t.info = 0 ∧ t.modu.lfsr = 1 ∧ t.t = 0 ∧ t.firMode = 0)
    | _ => false) = true := by decide

/-- M4: the state after the whole first buffer; the first and the last element of the buffer. -/
theorem test_genEnd_buffer : (match exec .genEnd servingG with
    | .next t => decide (t.modu = ⟨0x0B96, 0x4785, 0x6520, 0x7A82, 0, -1⟩ ∧ t.tidx = 1 ∧
        Memory.read? t.genBuf 0 = some 250 ∧ Memory.read? t.genBuf 255 = some 248 ∧ Memory.read? t.genBuf 256 = none)
    | _ => false) = true := by decide +kernel

/-! ### Witnesses: for every statement with hypotheses, a state and operands that meet them all -/

/-- `servingA` with the buffer it serves written, as after `ACQ.DONE`, `ACQ.BEGIN`. -/
def servingWritten : State := { servingA with acqBuf := Memory.write [] 0 bufC }

theorem cfgT_inContract : cfgT.InContract := by decide

theorem start_inv : start.Inv :=
  ⟨by decide, by decide, by decide, by decide, by decide, by decide, by decide⟩

theorem witness_LegalWordsDecodeToTheirEvents : zeros.length = 16 ∧
    (∀ w ∈ [0x00, 0x10, 0x20, 0x30, 0x40, 0x50, 0x60, 0x70, 0x80, 0xA0, 0xFF], (w : EventWord) &&& 0xFF = w) ∧
    (0x90 : EventWord) &&& 0xFE = 0x90 ∧ (0x91 : EventWord) &&& 0xFE = 0x90 := by decide
theorem witness_DecodeOfEncodedBits :
    (Instr.acqDone (List.replicate 16 0xFFFF)).WellFormed ∧ (Instr.tick true).WellFormed := by decide
theorem witness_DecodeOfEncodedTrace : ∀ i ∈ [Instr.acqDone bufC, .acqBegin, .tick false, .acqEnd], i.WellFormed := by decide
theorem witness_StepRunsTheDecodedEvent :
    (start.presenting [.tick true]).port = ⟨0x91, []⟩ :: [] ∧ decode ⟨0x91, []⟩ = .ok (.tick true) ∧
    (start.withPort [⟨0xB3, []⟩]).port = ⟨0xB3, []⟩ :: [] ∧ decode ⟨0xB3, []⟩ = .error (.reserved 0xB3) ∧
    start.port = [] ∧ servingA.port = [] ∧ IsEngine .acqEnd ∧ Enabled .acqEnd servingA :=
  ⟨rfl, rfl, rfl, by decide, rfl, rfl, .inr (.inl rfl), rfl, rfl⟩
theorem start_idles : ∀ i, IsEngine i → ¬Enabled i start := by
  rintro i (rfl | rfl | rfl | rfl) h <;> simp [Enabled, start, State.reset, Exchange.reset] at h
theorem witness_AcqDoneStoresAndFlips : servingA.runst = .run ∧ bufC.length = 16 := by decide
theorem witness_AcqBeginStartsTheService :
    ({ start with acq := ⟨1, true, false, 0, false, false⟩ } : State).runst = .run ∧
    ¬(servingA.runst = .run ∧ servingA.acq.pend = true ∧ servingA.acq.busy = false) := by decide
theorem witness_AcqErrRearms : servingA.runst = .run := by decide
theorem witness_GenDoneEmitsAndFlips : start.runst = .run ∧
    Memory.read? ({ start with genBuf := [(0, 7), (255, 9)] } : State).genBuf (genBase start.gen.ct + 0) = some 7 ∧
    Memory.read? ({ start with genBuf := [(0, 7), (255, 9)] } : State).genBuf (genBase start.gen.ct + 255) = some 9 := by
  decide
theorem witness_GenBeginStartsTheService :
    ({ start with gen := ⟨1, true, false, 0, false, false⟩ } : State).gen.canBegin = true ∧
    ¬(servingG.runst = .run ∧ servingG.gen.pend = true ∧ servingG.gen.busy = false) := by decide
theorem witness_GenErrRearms : servingG.runst = .run := by decide
theorem witness_TwoCompletionsReportTheSameBuffer :
    (let s : State := { start with acq := ⟨1, false, false, 0, false, false⟩, gen := ⟨0, false, false, 1, false, false⟩ }
     s.runst = .run ∧ s.acq.busy = false ∧ s.acq.cur = ~~~s.acq.ct ∧ s.gen.busy = false ∧ s.gen.cur = ~~~s.gen.ct) ∧
    bufC.length = 16 ∧ zeros.length = 16 ∧
    (servingA.runst = .run ∧ servingA.acq.busy = true ∧ servingA.acq.cur = ~~~servingA.acq.ct ∧
      servingA.config.BanksInContract) ∧
    (servingG.runst = .run ∧ servingG.gen.busy = true ∧ servingG.gen.cur = ~~~servingG.gen.ct ∧
      MagnitudeInContract (servingG.config.table servingG.tidx) ∧ servingG.modu.Inv) :=
  ⟨by decide, rfl, rfl, ⟨rfl, rfl, rfl, cfgT_inContract.1⟩, by decide⟩
theorem witness_DropRecordsMissedDeadlinesOnly : ∃ t u v w : State, exec (.acqDone bufC) servingA = .next t ∧
    servingA.acq.drop = false ∧ t.acq.drop = true ∧ exec .genErr start = .next u ∧ start.gen.drop = false ∧ u.gen.drop = true ∧
    exec .acqErr start = .next v ∧ v.acq.drop = true ∧ exec .genDone servingG = .next w ∧ w.gen.drop = true :=
  ⟨_, _, _, _, rfl, rfl, rfl, rfl, rfl, rfl, rfl, rfl, rfl, rfl⟩
theorem witness_SmaccIsTheFormulaOrAccRange :
    (∀ k ≤ 1, -2 ^ 31 ≤ (32767 : Sample).toInt * 2 ^ (15 : ShiftField).toNat + partialDot [32767] [32767] k ∧
      (32767 : Sample).toInt * 2 ^ (15 : ShiftField).toNat + partialDot [32767] [32767] k ≤ 2 ^ 31 - 1) ∧
    (∃ k ≤ 2, (0 : Sample).toInt * 2 ^ (0 : ShiftField).toNat + partialDot [-32768, -32768] [-32768, -32768] k < -2 ^ 31 ∨
      2 ^ 31 - 1 < (0 : Sample).toInt * 2 ^ (0 : ShiftField).toNat + partialDot [-32768, -32768] [-32768, -32768] k) :=
  ⟨by decide, 2, by decide, by decide⟩
theorem witness_FirUnderContractIsTheFormula : bufC.length = 16 ∧ (cfgT.firBank 0 0).InContract ∧ (cfgT.firBank 4 1).InContract := by
  decide
theorem witness_IirUpdateShiftsAndFeedsBack : smacc 0 [100, 0, 0, 0, 0] (cfgT.iirBank 1).coefficients 14 = .ok 25 ∧
    smacc 0 [-32768, -32768, 0, 0, 0] [-32768, -32768, 0, 0, 0] 0 = .error .accRange := by decide
theorem witness_IirSectionIsTheRecurrence : iirRun onePoleIir History.reset [16384, 16384, 16384] =
    .ok (⟨16384, 16384, 9472, 7168, 4096⟩, [4096, 7168, 9472]) := by decide
/-- A configuration outside the contract of R80, and a history on which its sections overflow. -/
def servingWide : State := { servingWritten with
  config := { cfgT with iirBanks := .replicate 5 ⟨-32768, -32768, -32768, 0, 0, 0⟩ }
  iirs := ⟨⟨⟨-32768, -32768, 0, 0, 0⟩, History.reset⟩, ⟨History.reset, History.reset⟩⟩ }
theorem witness_AcqEndRunsTheCascades : servingWritten.runst = .run ∧ servingWritten.acq.busy = true ∧
    servingWritten.acq.torn = false ∧ Memory.read? servingWritten.acqBuf (acqBase servingWritten.acq.cur + 15) = some 1600 ∧
    CascadeRuns servingWritten.config bufC 0 0 0 servingWritten.iirs.ch0
      ⟨⟨-6400, 0, -6400, 0, 0⟩, ⟨-6400, 0, -6400, 0, 0⟩⟩ (-6400) ∧
    CascadeRuns servingWritten.config bufC 0 0 1 servingWritten.iirs.ch1 ⟨⟨850, 0, 850, 0, 0⟩, ⟨850, 0, 850, 0, 0⟩⟩ 850 ∧
    servingWide.runst = .run ∧ servingWide.acq.busy = true ∧
    ¬∃ k y, CascadeRuns servingWide.config bufC 0 0 0 servingWide.iirs.ch0 k y :=
  ⟨rfl, rfl, rfl, by decide, ⟨-6400, -6400, by decide, by decide, by decide⟩, ⟨850, 850, by decide, by decide, by decide⟩,
    rfl, rfl, fun ⟨_, _, v, g, hf, hg, _⟩ => by
      have h : firApply servingWide.config bufC 0 0 = .ok (-6400) := by decide
      rw [h] at hf
      cases hf
      have h2 : iirUpdate servingWide.config servingWide.iirs.ch0.sec0 (-6400) 0 = .error .accRange := by decide
      rw [h2] at hg
      cases hg⟩
/-- R220: where nothing is presented the engine ends the service in progress (bank 0 on BUF-C, as in X3). -/
theorem test_quiet_port_serves : (match step servingWritten with
    | .next t => decide (t.acq.busy = false ∧ t.out0 = -6400 ∧ t.out1 = 850) | _ => false) = true := by decide
theorem witness_AcqEndFiltersTheBuffer : servingWritten.runst = .run ∧ servingWritten.acq.busy = true ∧
    servingWritten.config.BanksInContract ∧ servingWritten.acq.torn = false ∧
    Memory.read? servingWritten.acqBuf (acqBase servingWritten.acq.cur + 0) = some 100 ∧
    Memory.read? servingWritten.acqBuf (acqBase servingWritten.acq.cur + 15) = some 1600 :=
  ⟨rfl, rfl, cfgT_inContract.1, rfl, by decide, by decide⟩
theorem witness_AcqEndStopsOnlyByName : ¬(start.runst = .run ∧ start.acq.busy = true) ∧
    exec .acqEnd servingWide = .fault .accRange :=
  ⟨by decide, by rfl⟩
theorem witness_TimelyFrameFiltersItsOwnSamples : start.runst = .run ∧ start.acq.busy = false ∧ start.acq.torn = false ∧
    start.config.BanksInContract ∧ bufC.length = 16 :=
  ⟨rfl, rfl, rfl, cfgT_inContract.1, rfl⟩
theorem witness_PrbsShiftsLeftAndStaysNonzero : (0x8000 : BitVec 16) ≠ 0 := by decide
theorem witness_ModStepUnderContract : Modulator.reset.Inv ∧ MagnitudeInContract 0xfae147 ∧ MagnitudeInContract 0x030000 ∧
    MagnitudeInContract 0xFBFFFF := by decide
theorem witness_ModStepOnSeventeenBitSums : modStep 0xfae147 Modulator.reset = .ok (⟨2, 0xE147, 0xE147, 0xE147, 0, 0⟩, 250) ∧
    modStep 0xFFFFFF ⟨2, 0xFFFF, 0xFFFF, 0xFFFF, 0, 0⟩ = .error .modRange := by decide
theorem witness_ModulatorHasNoBias : modRun 2 0xfae147 Modulator.reset =
    .ok (⟨4, 0xC28E, 0xA3D5, 0x851C, 1, 2⟩, [250, 253]) := by decide
theorem servingG_run : ∃ m v, modRun 256 (servingG.config.table servingG.tidx) servingG.modu = .ok (m, v) := by
  have h : (modRun 256 (servingG.config.table servingG.tidx) servingG.modu).isOk = true := by decide +kernel
  cases hm : modRun 256 (servingG.config.table servingG.tidx) servingG.modu with
  | error f => rw [hm] at h; cases h
  | ok p => exact ⟨p.1, p.2, rfl⟩
/-- `servingG` with a table entry outside the contract, whose second step leaves the output's range (M9). -/
def servingHigh : State := { servingG with config := { cfgT with tableRest := .replicate 35 0xFFFFFF }, tidx := 1 }
theorem witness_GenEndFillsTheBuffer : servingG.runst = .run ∧ servingG.gen.busy = true ∧ servingG.gen.torn = false ∧
    ({ servingG with gen := { servingG.gen with torn := true } } : State).gen.torn = true ∧
    (∃ r v, r 0 = servingG.modu ∧ StepsInOrder (servingG.config.table servingG.tidx) r v 256) ∧
    (let r : Nat → Modulator := fun k => if k = 0 then Modulator.reset else modNext 0xFFFFFF Modulator.reset
     r 0 = servingHigh.modu ∧ (∀ j < 1, ∃ y, modStep (servingHigh.config.table servingHigh.tidx) (r j) = .ok (r (j + 1), y)) ∧
     modStep (servingHigh.config.table servingHigh.tidx) (r 1) = .error .modRange) ∧
    ¬(start.runst = .run ∧ start.gen.busy = true) := by
  obtain ⟨m, v, h⟩ := servingG_run
  obtain ⟨r, h0, -, hs⟩ := modRun_steps h
  refine ⟨rfl, rfl, rfl, rfl, ⟨r, v, h0, hs⟩, ⟨rfl, fun j hj => ⟨255, ?_⟩, by decide⟩, by decide⟩
  have : j = 0 := by omega
  subst this
  decide
theorem witness_GenEndCompletesUnderContract : servingG.runst = .run ∧ servingG.gen.busy = true ∧ servingG.modu.Inv ∧
    MagnitudeInContract (servingG.config.table servingG.tidx) := by decide
/-- The later state has its other buffer written in between, as in every timely run. -/
theorem witness_EmissionIsWhatTheServiceWrote : ∃ (t u : State) (r : Nat → Modulator) (v : List GenSample),
    servingG.gen.torn = false ∧ r 0 = servingG.modu ∧ StepsInOrder (servingG.config.table servingG.tidx) r v 256 ∧
    exec .genEnd servingG = .next t ∧
    (∀ i < 256, Memory.read? u.genBuf (genBase servingG.gen.cur + i) = Memory.read? t.genBuf (genBase servingG.gen.cur + i)) ∧
    u.gen.ct = servingG.gen.cur ∧ u.runst = .run ∧ Memory.read? u.genBuf 256 = some 7 := by
  obtain ⟨m, v, hm⟩ := servingG_run
  obtain ⟨r, h0, -, hs⟩ := modRun_steps hm
  have ht : exec .genEnd servingG = .next ((((((servingG.withModulator m).withGenBuf (serviceWrite servingG v)).withTidx
      (nextBank nTab servingG.tidx)).withGen servingG.gen.finish).drawGen nGen).silent) := by
    simp only [exec, execGenEnd]
    rw [State.engine_enabled (s := servingG) (e := servingG.gen.busy) rfl rfl]
    unfold genEndEffect
    rw [hm]
  refine ⟨_, { start with genBuf := Memory.write (serviceWrite servingG v) 256 [7] }, r, v, rfl, h0, hs, ht, fun i hi => ?_,
    rfl, rfl, Memory.read?_write_inside _ 256 [7] 0 (by decide)⟩
  refine Memory.read?_write_outside _ 256 [7] _ (.inl ?_)
  have hb : genBase servingG.gen.cur = 0 := by decide
  omega
theorem witness_TableAdvancesOncePerFrame : start.runst = .run ∧ start.gen.pend = false ∧ start.gen.busy = false ∧
    start.modu.Inv ∧ start.config.TableInContract :=
  ⟨rfl, rfl, rfl, start_inv.modInv, cfgT_inContract.2⟩
/-- The rows of the table at the ends of their ranges, with `T_SHORT` = 4 and `T_LONG` = 10. -/
theorem witness_DebounceTable : cfgT.tShort = 4 ∧ cfgT.tLong = 10 ∧
    debTick cfgT true 9 = (10, .none) ∧ debTick cfgT true 10 = (11, .long) ∧ debTick cfgT true 11 = (11, .none) ∧
    debTick cfgT false 11 = (2, .none) ∧ debTick cfgT false 10 = (2, .short) ∧ debTick cfgT false 4 = (2, .short) ∧
    debTick cfgT false 3 = (2, .none) ∧ debTick cfgT false 1 = (0, .none) ∧ debTick cfgT false 0 = (0, .none) := by decide
theorem witness_TickClassifiesAndAdvancesModes : start.runst = .run := by decide
theorem witness_OneEventPerPress : start.runst = .run ∧ start.t = 0 ∧ 3 < start.config.tShort ∧ start.config.tShort ≤ 4 ∧
    10 ≤ start.config.tLong ∧ start.config.tLong < 11 := by decide
theorem witness_ConfigurationFaultHalts : start.runst = .run := by decide
theorem witness_ReservedWordHalts : start.runst = .run ∧
    (0xB3 : EventWord) ∉ [0x00, 0x10, 0x20, 0x30, 0x40, 0x50, 0x60, 0x70, 0x80, 0x90, 0x91, 0xA0, 0xFF] := by decide
theorem witness_HaltIgnoresAllButReset : halted.runst = .halt ∧ zeros.length = 16 := by decide
theorem witness_AcqDoneNeedsSixteenSamples : ([1, 2, 3] : List Sample).length ≠ 16 ∧ (List.replicate 17 (0 : Sample)).length ≠ 16 := by
  decide
theorem witness_OnlyResetLeavesHalt : ∃ t u : State, halted.runst = .halt ∧ step (halted.presenting [.genDone]) = .next t ∧
    t.runst = .halt ∧ step (halted.presenting [.rst]) = .next u ∧ u.runst = .run :=
  ⟨_, _, rfl, rfl, rfl, rfl, rfl⟩
theorem witness_StepKeepsTheInvariants : start.Inv ∧ ∃ t, step (start.presenting [.acqDone bufC]) = .next t :=
  ⟨start_inv, _, rfl⟩
theorem servingWritten_ready : servingWritten.AcqReady :=
  ⟨fun h => Bool.noConfusion h, fun _ _ => by decide⟩
theorem witness_StepKeepsAcquisitionBuffersWritten : servingWritten.AcqReady ∧
    ∃ t, step (servingWritten.presenting [.acqDone zeros]) = .next t :=
  ⟨servingWritten_ready, _, rfl⟩
theorem witness_ContractExcludesFaults : servingWritten.config.InContract ∧ servingWritten.modu.Inv ∧
    ∃ t, step (servingWritten.presenting [.genDone]) = .next t :=
  ⟨cfgT_inContract, start_inv.modInv, _, rfl⟩
theorem witness_ParametersAreNeverWritten : ∃ t, step (servingA.presenting [.rst]) = .next t := ⟨_, rfl⟩
theorem witness_EachSourceWritesItsOwnElements : ∃ t, exec .acqErr servingA = .next t ∧ ¬IsGeneration .acqErr :=
  ⟨_, rfl, by simp [IsGeneration]⟩
theorem witness_StreamsCommute : ∃ s1 s2 u1 u2, exec .acqErr servingA = .next s1 ∧ exec .genDone s1 = .next s2 ∧
    exec .genDone servingA = .next u1 ∧ exec .acqErr u1 = .next u2 ∧ IsAcquisition .acqErr ∧ IsGeneration .genDone :=
  ⟨_, _, _, _, rfl, rfl, rfl, rfl, by simp [IsAcquisition], by simp [IsGeneration]⟩
theorem witness_TickCommutesWithStreamEvents : ∃ s1 s2 u1 u2, exec (.tick true) servingA = .next s1 ∧
    exec .acqErr s1 = .next s2 ∧ exec .acqErr servingA = .next u1 ∧ exec (.tick true) u1 = .next u2 ∧ IsAcquisition .acqErr :=
  ⟨_, _, _, _, rfl, rfl, rfl, rfl, by simp [IsAcquisition]⟩
theorem witness_TwoServicesDrainAStream : (let s : State := { servingA with acq := { servingA.acq with pend := true } }
    s.runst = .run ∧ s.config.BanksInContract ∧ s.config.TableInContract ∧ s.modu.Inv) :=
  ⟨rfl, cfgT_inContract.1, cfgT_inContract.2, start_inv.modInv⟩
/-- A run in which the service in progress ends and the CORE idles from then on. -/
def endingEvents (n : Nat) : PortEvent := if n = 0 then ⟨0x30, []⟩ else ⟨0x00, []⟩
def endingRun (n : Nat) : State :=
  match n with
  | 0 => servingWritten
  | n + 1 =>
    match applyEvent (endingEvents n) (endingRun n) with
    | .next t => t
    | _ => servingWritten
theorem endingEvents_succ (n : Nat) : endingEvents (n + 1) = ⟨0x00, []⟩ := by simp [endingEvents]
theorem endingRun_succ (n : Nat) : applyEvent (endingEvents (n + 1)) (endingRun (n + 1)) = .next (endingRun (n + 2)) := by
  have h : endingRun (n + 2) = (match applyEvent (endingEvents (n + 1)) (endingRun (n + 1)) with
    | .next t => t | _ => servingWritten) := rfl
  rw [h, endingEvents_succ]
  rfl
/-- From event 1 on nothing is presented, in progress or pending. -/
theorem endingRun_quiet (n : Nat) : (endingRun (n + 1)).runst = .run ∧ (endingRun (n + 1)).acq.pend = false ∧
    (endingRun (n + 1)).acq.busy = false ∧ (endingRun (n + 1)).gen.pend = false ∧ (endingRun (n + 1)).gen.busy = false ∧
    (endingRun (n + 1)).port = [] := by
  induction n with
  | zero => exact ⟨by rfl, by rfl, by rfl, by rfl, by rfl, by rfl⟩
  | succ n ih =>
    have h : endingRun (n + 2) = (endingRun (n + 1)).silent := by
      have h2 := endingRun_succ n
      rw [endingEvents_succ] at h2
      exact (Host.Outcome.next.inj h2).symm
    rw [h]
    exact ih
theorem endingRun_isRun : IsRun endingEvents endingRun := by
  intro n
  cases n with
  | zero => rfl
  | succ n => exact endingRun_succ n
theorem witness_FairRunsDrainAStream : IsRun endingEvents endingRun ∧ WeaklyFair endingEvents endingRun ∧
    (∀ m ≥ 0, (endingRun m).runst = .run) ∧ (endingRun 0).acq.busy = true ∧
    (∀ m ≥ 0, decode (endingEvents m) ≠ .ok .acqErr ∧ ∀ data, decode (endingEvents m) ≠ .ok (.acqDone data)) ∧
    (∀ m ≥ 0, decode (endingEvents m) ≠ .ok .genErr ∧ decode (endingEvents m) ≠ .ok .genDone) := by
  have taken : ∀ m, decode (endingEvents m) = .ok .acqEnd ∨ decode (endingEvents m) = .ok .idle := by
    intro m
    cases m with
    | zero => exact .inl rfl
    | succ m => exact .inr (by rw [endingEvents_succ]; rfl)
  refine ⟨endingRun_isRun, fun i hi n h => ?_, fun m _ => ?_, rfl, fun m _ => ?_, fun m _ => ?_⟩
  · have he := h (n + 1) (by omega)
    have hq := endingRun_quiet n
    rcases hi with rfl | rfl | rfl | rfl <;> simp [Enabled, hq] at he
  · cases m with
    | zero => rfl
    | succ m => exact (endingRun_quiet m).1
  · rcases taken m with h | h <;> simp [h]
  · rcases taken m with h | h <;> simp [h]
/-- The same run is one of the machine's own step, which ends the service because nothing is presented. -/
theorem witness_StepRunsAreWeaklyFair : IsStepRun endingRun ∧ Enabled .acqEnd (endingRun 0) := by
  refine ⟨fun n => ?_, rfl, rfl⟩
  cases n with
  | zero => rfl
  | succ n =>
    obtain ⟨hr, h1, h2, h3, h4, hp⟩ := endingRun_quiet n
    have he : nextEvent (endingRun (n + 1)) = (endingEvents (n + 1), endingRun (n + 1)) := by
      simp [nextEvent, hp, ownEvent, ownAcq, ownGen, hr, h1, h2, h3, h4, encode, endingEvents]
    unfold step
    rw [he]
    exact endingRun_isRun (n + 1)
theorem witness_QuietPortDrainsBothStreams :
    (let s : State := { servingA with acq := { servingA.acq with pend := true }, gen := ⟨1, true, true, 0, true, true⟩ }
     s.port = [] ∧ s.runst = .run ∧ s.config.InContract ∧ s.modu.Inv) :=
  ⟨rfl, rfl, cfgT_inContract, start_inv.modInv⟩

end Sys2Proof.Tests
end

section
/-! PROOFS. The scope (00_scope.md): the open parameters' constraints (R7, R191), and what one step runs (R15, R90, R215,
R220). The lemmas about `decode`, `applyEvent`, `ownEvent` and `step` serve every statement about steps. -/

namespace Sys2Proof

/-! ### The thresholds and the width of the debounce counter -/

/-- R191: no configuration has a zero short threshold. -/
theorem Config.one_le_tShort (c : Config) : 1 ≤ c.tShort :=
  Nat.le_add_left 1 c.tShortPred

/-- R191: the two thresholds never meet. -/
theorem Config.tShort_lt_tLong (c : Config) : c.tShort < c.tLong :=
  Nat.lt_succ_of_le (Nat.le_add_right c.tShort c.tGap)

/-- R7: a width holds `T_LONG + 1` exactly when it is `CNT_W` or more. -/
theorem Config.cntW_le_iff (c : Config) (w : Nat) : c.cntW ≤ w ↔ c.tLong + 1 < 2 ^ w :=
  Nat.log2_lt (Nat.succ_ne_zero c.tLong)

/-! ### Decoding -/

/-- R95: what the Z format decodes to has a payload of 16 samples or none. -/
theorem decodeZ_wellFormed {op : Nat} {e : PortEvent} {i : Instr} (h : decodeZ op e = .ok i) : i.WellFormed := by
  unfold decodeZ at h
  split at h
  case h_2 =>
    split at h
    · cases h
      exact beq_iff_eq.mpr ‹_›
    · cases h
  all_goals cases h <;> rfl

/-- R95: the decoder answers well-formed events only. -/
theorem decode_wellFormed {e : PortEvent} {i : Instr} (h : decode e = .ok i) : i.WellFormed := by
  unfold decode at h
  split_ifs at h
  · cases h; rfl
  · exact decodeZ_wellFormed h
  · cases h; rfl

/-- R92: decoding what stands on the ports for a well-formed event gives the event back. -/
theorem decode_encode {i : Instr} (h : i.WellFormed) : decode (encode i) = .ok i := by
  cases i with
  | acqDone data =>
    have hl : data.length = nAcq := beq_iff_eq.mp h
    simp [decode, encode, decodeZ, isZ, hl]
  | tick level => cases level <;> rfl
  | idle | acqBegin | acqEnd | acqErr | genDone | genBegin | genEnd | genErr | cfgf | rst => rfl

end Sys2Proof

namespace Sys2Proof.Machine

/-! ### Applying one event -/

/-- An event of the table has its meaning. -/
theorem applyEvent_ok {e : PortEvent} {i : Instr} (h : decode e = .ok i) (s : State) : applyEvent e s = exec i s := by
  simp only [applyEvent, h]

/-- A reserved word has its own meaning (R94, R214). -/
theorem applyEvent_reserved {e : PortEvent} {w : EventWord} (h : decode e = .error (.reserved w)) (s : State) :
    applyEvent e s = takeReserved w s := by
  simp only [applyEvent, h, takeRejected]

/-! ### The engine's own turn -/

theorem IsEngine.wellFormed {i : Instr} (h : IsEngine i) : i.WellFormed := by
  rcases h with rfl | rfl | rfl | rfl <;> rfl

/-- The engine events are those of its two streams (R215). -/
theorem isEngine_iff (i : Instr) : IsEngine i ↔ (i = .acqBegin ∨ i = .acqEnd) ∨ (i = .genBegin ∨ i = .genEnd) :=
  or_assoc.symm

/-- What the two streams offer are exactly the engine events that are enabled (R215). -/
theorem own_iff (s : State) (i : Instr) : ownAcq s = some i ∨ ownGen s = some i ↔ IsEngine i ∧ Enabled i s := by
  rw [ownAcq_iff, ownGen_iff, isEngine_iff]
  exact or_and_right.symm

/-- Where an engine event is enabled, the CORE's own event is one that is (R220). -/
theorem ownEvent_enabled {s : State} (h : ∃ i, IsEngine i ∧ Enabled i s) :
    ∃ i k, IsEngine i ∧ Enabled i s ∧ ownEvent s = (i, s.withTurn k) := by
  obtain ⟨ha, hg, -⟩ | ⟨i, k, hi, ho⟩ := ownEvent_cases s
  · obtain ⟨i, hi⟩ := h
    have hoffer := (own_iff s i).mpr hi
    simp [ha, hg] at hoffer
  · obtain ⟨he, hen⟩ := (own_iff s i).mp hi
    exact ⟨i, k, he, hen, ho⟩

/-- Where no engine event is enabled, the CORE idles (R211, R247). -/
theorem ownEvent_idle {s : State} (h : ∀ i, IsEngine i → ¬Enabled i s) : ownEvent s = (.idle, s) := by
  obtain ⟨-, -, ho⟩ | ⟨i, k, hi, -⟩ := ownEvent_cases s
  · exact ho
  · obtain ⟨he, hen⟩ := (own_iff s i).mp hi
    exact absurd hen (h i he)

/-- The CORE's own event carries no payload that could be wrong. -/
theorem ownEvent_wellFormed (s : State) : (ownEvent s).1.WellFormed := by
  obtain ⟨-, -, ho⟩ | ⟨i, k, hi, ho⟩ := ownEvent_cases s
  · rw [ho]; rfl
  · rw [ho]
    exact ((own_iff s i).mp hi).1.wellFormed

/-! ### One step -/

/-- A presented event is applied to the state without it (R15, R90). -/
theorem step_cons {s : State} {e : PortEvent} {rest : List PortEvent} (h : s.port = e :: rest) :
    step s = applyEvent e (s.withPort rest) := by
  rw [step, nextEvent_cons h]

/-- At an empty port the CORE runs its own event (log 23). -/
theorem step_nil {s : State} (h : s.port = []) : step s = exec (ownEvent s).1 (ownEvent s).2 := by
  rw [step, nextEvent_nil h]
  exact applyEvent_ok (decode_encode (ownEvent_wellFormed s)) _

end Sys2Proof.Machine

namespace Sys2Proof.Proofs
open Sys2Proof Sys2Proof.Machine

/-! ### The obligations -/

/-- Settles O36: the constraint is in the type of the parameters, and `CNT_W` is one more than the binary logarithm. -/
theorem thresholdsAndCounterWidth : Obligations.ThresholdsAndCounterWidth := fun c =>
  ⟨c.one_le_tShort, c.tShort_lt_tLong, (c.cntW_le_iff c.cntW).mp le_rfl, fun w => (c.cntW_le_iff w).mpr⟩

/-- Settles O5, by the two forms of a step: the event that stands first on the port, or the CORE's own. -/
theorem stepRunsTheDecodedEvent : Obligations.StepRunsTheDecodedEvent := by
  intro s e rest
  refine ⟨fun hp i hd => ⟨decode_wellFormed hd, ?_⟩, fun hp w hd => ?_, fun hp hidle => ?_, fun hp hen => ?_⟩
  · rw [step_cons hp, applyEvent_ok hd]
  · rw [step_cons hp, applyEvent_reserved hd]
  · rw [step_nil hp, ownEvent_idle hidle]
  · obtain ⟨i, k, he, hi, ho⟩ := ownEvent_enabled hen
    refine ⟨i, k, he, hi, ?_⟩
    rw [step_nil hp, ho]
    rfl

end Sys2Proof.Proofs
end

section
/-! PROOFS. The state (10_state.md): what each source writes (R34), the drop flags (R24, R128, R270), the commuting of the two
streams (R218), and the invariants (R35). The frame of `exec`, the moves of an Exchange and the locality of a stream's events
serve every statement about what an event changes. -/

namespace Sys2Proof.Machine

/-! ### The frame of an event -/

/-- R34, for one event from `s` to `t`: the elements of every source but the event's own are unchanged. -/
def KeepsForeignElements (i : Instr) (s t : State) : Prop :=
  (¬IsAcquisition i → State.SameAcquisition s t) ∧
  (¬IsGeneration i → State.SameGeneration s t) ∧
  ((∀ level, i ≠ .tick level) → State.SameDebounce s t) ∧
  (i ≠ .cfgf → State.SameRun s t)

theorem keepsForeignElements_silent (i : Instr) (s : State) : KeepsForeignElements i s s.silent := by
  simp [KeepsForeignElements, State.SameAcquisition, State.SameGeneration, State.SameDebounce, State.SameRun]

/-- R34, the frame of `exec`. -/
theorem exec_keepsForeignElements {i : Instr} {s t : State} (hi : i ≠ .rst) (h : exec i s = .next t) :
    KeepsForeignElements i s t := by
  have hc := exec_cases h
  cases i with
  | rst => exact absurd rfl hi
  | idle =>
    obtain rfl := hc
    exact keepsForeignElements_silent _ s
  | acqBegin | genBegin =>
    obtain ⟨-, -, rfl⟩ := hc
    simp [KeepsForeignElements, State.SameAcquisition, State.SameGeneration, State.SameDebounce, State.SameRun,
      IsAcquisition, IsGeneration, acqBeginEffect, genBeginEffect]
  | acqEnd =>
    obtain ⟨-, -, file, y0, y1, -, rfl⟩ := hc
    simp [KeepsForeignElements, State.SameGeneration, State.SameDebounce, State.SameRun, IsAcquisition]
  | genEnd =>
    obtain ⟨-, -, m, v, -, rfl⟩ := hc
    simp [KeepsForeignElements, State.SameAcquisition, State.SameDebounce, State.SameRun, IsGeneration]
  | acqDone data =>
    obtain ⟨-, ⟨-, rfl⟩ | ⟨-, rfl⟩⟩ := hc
    · simp [KeepsForeignElements, State.SameGeneration, State.SameDebounce, State.SameRun, IsAcquisition, acqDoneEffect]
    · exact keepsForeignElements_silent _ s
  | acqErr | genDone | genErr | tick | cfgf =>
    obtain ⟨-, rfl⟩ | ⟨-, rfl⟩ := hc
    · simp [KeepsForeignElements, State.SameAcquisition, State.SameGeneration, State.SameDebounce, State.SameRun,
        IsAcquisition, IsGeneration, acqErrEffect, genDoneEffect, genErrEffect, tickEffect]
    · exact keepsForeignElements_silent _ s

/-- R65, R90: no event writes the parameters, the events still to come or the counter of free turns. -/
theorem exec_environment {i : Instr} {s t : State} (h : exec i s = .next t) :
    t.config = s.config ∧ t.port = s.port ∧ t.freeTurn = s.freeTurn := by
  have hc := exec_cases h
  cases i with
  | idle | rst =>
    obtain rfl := hc
    exact ⟨rfl, rfl, rfl⟩
  | acqBegin | genBegin =>
    obtain ⟨-, -, rfl⟩ := hc
    exact ⟨rfl, rfl, rfl⟩
  | acqEnd =>
    obtain ⟨-, -, file, y0, y1, -, rfl⟩ := hc
    exact ⟨rfl, rfl, rfl⟩
  | genEnd =>
    obtain ⟨-, -, m, v, -, rfl⟩ := hc
    simp
  | acqDone data =>
    obtain ⟨-, ⟨-, rfl⟩ | ⟨-, rfl⟩⟩ := hc <;> exact ⟨rfl, rfl, rfl⟩
  | acqErr | genDone | genErr | tick | cfgf =>
    obtain ⟨-, rfl⟩ | ⟨-, rfl⟩ := hc <;> exact ⟨rfl, rfl, rfl⟩

/-- An acquisition event is of no other source. -/
theorem IsAcquisition.foreign {i : Instr} (h : IsAcquisition i) :
    i ≠ .rst ∧ ¬IsGeneration i ∧ (∀ level, i ≠ .tick level) ∧ i ≠ .cfgf := by
  obtain ⟨data, rfl⟩ | rfl | rfl | rfl := h <;> simp [IsGeneration]

/-- A generation event is of no other source. -/
theorem IsGeneration.foreign {i : Instr} (h : IsGeneration i) :
    i ≠ .rst ∧ ¬IsAcquisition i ∧ (∀ level, i ≠ .tick level) ∧ i ≠ .cfgf := by
  obtain rfl | rfl | rfl | rfl := h <;> simp [IsAcquisition]

/-! ### The moves of an Exchange -/

/-- What the events of one stream can make of its Exchange (R120): nothing, or one of the four moves, each only where its
event is the one that happened. -/
def Exchange.Moves (done begins ends err : Prop) (x y : Exchange) : Prop :=
  y = x ∨ (done ∧ y = x.complete) ∨ (begins ∧ y = x.accept) ∨ (ends ∧ y = x.finish) ∨ (err ∧ y = x.rearm)

/-- An event but `RST` makes one of the moves of the acquisition Exchange (R34). -/
theorem exec_acq_moves {i : Instr} {s t : State} (hi : i ≠ .rst) (h : exec i s = .next t) :
    Exchange.Moves (∃ data, i = .acqDone data) (i = .acqBegin) (i = .acqEnd) (i = .acqErr) s.acq t.acq := by
  by_cases ha : IsAcquisition i
  · have hc := exec_cases h
    obtain ⟨data, rfl⟩ | rfl | rfl | rfl := ha
    · obtain ⟨-, ⟨-, rfl⟩ | ⟨-, rfl⟩⟩ := hc
      · exact .inr (.inl ⟨⟨data, rfl⟩, rfl⟩)
      · exact .inl rfl
    · obtain ⟨-, -, rfl⟩ := hc
      exact .inr (.inr (.inl ⟨rfl, rfl⟩))
    · obtain ⟨-, -, file, y0, y1, -, rfl⟩ := hc
      exact .inr (.inr (.inr (.inl ⟨rfl, rfl⟩)))
    · obtain ⟨-, rfl⟩ | ⟨-, rfl⟩ := hc
      · exact .inr (.inr (.inr (.inr ⟨rfl, rfl⟩)))
      · exact .inl rfl
  · obtain ⟨hacq, -⟩ := (exec_keepsForeignElements hi h).1 ha
    exact .inl hacq

/-- An event but `RST` makes one of the moves of the generation Exchange (R34). -/
theorem exec_gen_moves {i : Instr} {s t : State} (hi : i ≠ .rst) (h : exec i s = .next t) :
    Exchange.Moves (i = .genDone) (i = .genBegin) (i = .genEnd) (i = .genErr) s.gen t.gen := by
  by_cases hg : IsGeneration i
  · have hc := exec_cases h
    obtain rfl | rfl | rfl | rfl := hg
    · obtain ⟨-, rfl⟩ | ⟨-, rfl⟩ := hc
      · exact .inr (.inl ⟨rfl, rfl⟩)
      · exact .inl rfl
    · obtain ⟨-, -, rfl⟩ := hc
      exact .inr (.inr (.inl ⟨rfl, rfl⟩))
    · obtain ⟨-, -, m, v, -, rfl⟩ := hc
      exact .inr (.inr (.inr (.inl ⟨rfl, rfl⟩)))
    · obtain ⟨-, rfl⟩ | ⟨-, rfl⟩ := hc
      · exact .inr (.inr (.inr (.inr ⟨rfl, rfl⟩)))
      · exact .inl rfl
  · obtain ⟨-, hgen, -⟩ := exec_keepsForeignElements hi h
    exact .inl (hgen hg).1

section
variable {done begins ends err : Prop} {x y : Exchange}

/-- R24: no move clears the drop flag. -/
theorem Exchange.Moves.drop_sticky (h : Exchange.Moves done begins ends err x y) (hx : x.drop = true) : y.drop = true := by
  obtain rfl | ⟨-, rfl⟩ | ⟨-, rfl⟩ | ⟨-, rfl⟩ | ⟨-, rfl⟩ := h <;> simp [hx]

/-- R128, R270: the drop flag becomes set by a transfer fault, or by a completion that is a missed deadline. -/
theorem Exchange.Moves.drop_set (h : Exchange.Moves done begins ends err x y) (hx : x.drop = false) (hy : y.drop = true) :
    err ∨ (done ∧ (x.pend = true ∨ x.busy = true)) := by
  obtain rfl | ⟨hdone, rfl⟩ | ⟨-, rfl⟩ | ⟨-, rfl⟩ | ⟨herr, -⟩ := h
  · simp [hx] at hy
  · exact .inr ⟨hdone, by simpa [hx] using hy⟩
  · simp [hx] at hy
  · simp [hx] at hy
  · exact .inl herr

end

/-! ### The two streams -/

/-- `f` on the next state of an outcome; a fault or a refusal stays. -/
def mapNext (f : State → State) (o : Host.Outcome State Fault Refusal) : Host.Outcome State Fault Refusal :=
  match o with
  | .next s => .next (f s)
  | .fault r => .fault r
  | .refused r => .refused r

theorem mapNext_eq_next {f : State → State} {o : Host.Outcome State Fault Refusal} {t : State}
    (h : mapNext f o = .next t) : ∃ s, o = .next s ∧ f s = t := by
  cases o with
  | next s => exact ⟨s, rfl, by simpa [mapNext] using h⟩
  | fault r => cases h
  | refused r => cases h

/-- `s` with the acquisition stream's part of `u` (SE1 to SE10, `ACQ_BUF` and its counter, R34). -/
def State.withAcquisition (s u : State) : State :=
  { s with acq := u.acq, lmf := u.lmf, lmi := u.lmi, iirs := u.iirs, out0 := u.out0, out1 := u.out1, acqBuf := u.acqBuf,
           freeAcq := u.freeAcq }

/-- `s` with the generation stream's part of `u` (SE11 to SE19, SE26, `GEN_BUF` and its counter, R34). -/
def State.withGeneration (s u : State) : State :=
  { s with gen := u.gen, modu := u.modu, tidx := u.tidx, genBuf := u.genBuf, freeGen := u.freeGen }

/-- An external event passes on an update that its effect does not look at. -/
theorem State.external_mapNext {f : State → State} {effect : State → State} {s : State} (hr : (f s).runst = s.runst)
    (hs : (f s).silent = f s.silent) (he : effect (f s) = f (effect s)) :
    (f s).external effect = mapNext f (s.external effect) := by
  cases h : s.runst with
  | run => rw [State.external_run (hr.trans h), State.external_run h, he]; rfl
  | halt => rw [State.external_halt (hr.trans h), State.external_halt h, hs]; rfl

/-- An engine event passes on an update that its effect does not look at. -/
theorem State.engine_mapNext {f : State → State} {effect : State → Host.Outcome State Fault Refusal} {s : State}
    (m : String) (e : Bool) (hr : (f s).runst = s.runst) (he : effect (f s) = mapNext f (effect s)) :
    (f s).engine m e effect = mapNext f (s.engine m e effect) := by
  simp only [State.engine, hr, he]
  split <;> rfl

/-- `ACQ.END` where the filter run answers (R156). -/
theorem acqEndEffect_ok {s : State} {file : IirFile} {y0 y1 : Sample}
    (h : runFilter s.config (serviceSamples s) s.lmf s.lmi s.iirs = .ok (file, y0, y1)) :
    acqEndEffect s =
      .next ((((s.withFiltered file y0 y1).withAcq s.acq.finish).drawAcq nAcq).withOutput (.strobe y0 y1)) := by
  simp only [acqEndEffect, h]

/-- `ACQ.END` where the filter run raises a fault (R143). -/
theorem acqEndEffect_error {s : State} {r : Fault}
    (h : runFilter s.config (serviceSamples s) s.lmf s.lmi s.iirs = .error r) : acqEndEffect s = .fault r := by
  simp only [acqEndEffect, h]

/-- `GEN.END` where the modulation run answers (R178). -/
theorem genEndEffect_ok {s : State} {m : Modulator} {v : List GenSample}
    (h : modRun nGen (s.config.table s.tidx) s.modu = .ok (m, v)) :
    genEndEffect s =
      .next (((((s.withModulator m).withGenBuf (serviceWrite s v)).withTidx (nextBank nTab s.tidx)).withGen
        s.gen.finish).drawGen nGen).silent := by
  unfold genEndEffect
  rw [h]

/-- `GEN.END` where the modulation run raises a fault (R176). -/
theorem genEndEffect_error {s : State} {r : Fault}
    (h : modRun nGen (s.config.table s.tidx) s.modu = .error r) : genEndEffect s = .fault r := by
  unfold genEndEffect
  rw [h]

/-! The generation stream's updates commute with `withAcquisition`. -/

section
variable (s u : State)

theorem State.withAcquisition_withGen (x : Exchange) :
    (s.withGen x).withAcquisition u = (s.withAcquisition u).withGen x := rfl

theorem State.withAcquisition_withGenBuf (m : Cells 8) :
    (s.withGenBuf m).withAcquisition u = (s.withAcquisition u).withGenBuf m := rfl

theorem State.withAcquisition_withModulator (m : Modulator) :
    (s.withModulator m).withAcquisition u = (s.withAcquisition u).withModulator m := rfl

theorem State.withAcquisition_withTidx (k : Fin nTab) :
    (s.withTidx k).withAcquisition u = (s.withAcquisition u).withTidx k := rfl

theorem State.withAcquisition_drawGen (n : Nat) :
    (s.drawGen n).withAcquisition u = (s.withAcquisition u).drawGen n := rfl

theorem State.withAcquisition_silent : s.silent.withAcquisition u = (s.withAcquisition u).silent := rfl

end

theorem acqEndEffect_withGeneration (s u : State) :
    acqEndEffect (s.withGeneration u) = mapNext (·.withGeneration u) (acqEndEffect s) := by
  cases h : runFilter s.config (serviceSamples s) s.lmf s.lmi s.iirs with
  | error r => exact (acqEndEffect_error (s := s.withGeneration u) h).trans (by rw [acqEndEffect_error h]; rfl)
  | ok p => exact (acqEndEffect_ok (s := s.withGeneration u) h).trans (by rw [acqEndEffect_ok h]; rfl)

theorem genEndEffect_withAcquisition (s u : State) :
    genEndEffect (s.withAcquisition u) = mapNext (·.withAcquisition u) (genEndEffect s) := by
  cases h : modRun nGen (s.config.table s.tidx) s.modu with
  | error r => exact (genEndEffect_error (s := s.withAcquisition u) h).trans (by rw [genEndEffect_error h]; rfl)
  | ok p =>
    rw [genEndEffect_ok h]
    refine (genEndEffect_ok (s := s.withAcquisition u) h).trans ?_
    simp only [mapNext, State.withAcquisition_silent, State.withAcquisition_drawGen, State.withAcquisition_withGen,
      State.withAcquisition_withTidx, State.withAcquisition_withGenBuf, State.withAcquisition_withModulator]
    rfl

/-- An acquisition event neither reads nor writes the generation stream's part. -/
theorem exec_withGeneration {a : Instr} (ha : IsAcquisition a) (s u : State) :
    exec a (s.withGeneration u) = mapNext (·.withGeneration u) (exec a s) := by
  obtain ⟨data, rfl⟩ | rfl | rfl | rfl := ha
  · simp only [exec, execAcqDone]
    split
    · exact State.external_mapNext (f := (·.withGeneration u)) rfl rfl rfl
    · rfl
  · exact State.engine_mapNext (f := (·.withGeneration u)) (effect := fun s => .next (acqBeginEffect s)) _ _ rfl rfl
  · exact State.engine_mapNext (f := (·.withGeneration u)) _ _ rfl (acqEndEffect_withGeneration s u)
  · exact State.external_mapNext (f := (·.withGeneration u)) rfl rfl rfl

/-- A generation event neither reads nor writes the acquisition stream's part. -/
theorem exec_withAcquisition {g : Instr} (hg : IsGeneration g) (s u : State) :
    exec g (s.withAcquisition u) = mapNext (·.withAcquisition u) (exec g s) := by
  obtain rfl | rfl | rfl | rfl := hg
  · exact State.external_mapNext (f := (·.withAcquisition u)) rfl rfl rfl
  · exact State.engine_mapNext (f := (·.withAcquisition u)) (effect := fun s => .next (genBeginEffect s)) _ _ rfl rfl
  · exact State.engine_mapNext (f := (·.withAcquisition u)) _ _ rfl (genEndEffect_withAcquisition s u)
  · exact State.external_mapNext (f := (·.withAcquisition u)) rfl rfl rfl

/-- No event reads the record of the latest output, and every event writes it (log 2). -/
theorem exec_withOutput (i : Instr) (s : State) (o : OutputRecord) : exec i (s.withOutput o) = exec i s := by
  cases i <;> rfl

/-- An acquisition event changes its stream's part and the output record, and nothing else. -/
theorem exec_acquisition_eq {a : Instr} {s t : State} (ha : IsAcquisition a) (h : exec a s = .next t) :
    t = (s.withAcquisition t).withOutput t.output := by
  obtain ⟨notRst, notGen, notTick, notCfgf⟩ := ha.foreign
  obtain ⟨-, hgen, hdeb, hrun⟩ := exec_keepsForeignElements notRst h
  obtain ⟨gen, modu, tidx, genBuf, freeGen⟩ := hgen notGen
  obtain ⟨counter, firMode, iirMode⟩ := hdeb notTick
  obtain ⟨runst, cause, info⟩ := hrun notCfgf
  obtain ⟨config, port, freeTurn⟩ := exec_environment h
  cases s
  cases t
  simp_all [State.withAcquisition, State.withOutput]

/-- A generation event changes its stream's part and the output record, and nothing else. -/
theorem exec_generation_eq {g : Instr} {s t : State} (hg : IsGeneration g) (h : exec g s = .next t) :
    t = (s.withGeneration t).withOutput t.output := by
  obtain ⟨notRst, notAcq, notTick, notCfgf⟩ := hg.foreign
  obtain ⟨hacq, -, hdeb, hrun⟩ := exec_keepsForeignElements notRst h
  obtain ⟨acq, lmf, lmi, iirs, out0, out1, acqBuf, freeAcq⟩ := hacq notAcq
  obtain ⟨counter, firMode, iirMode⟩ := hdeb notTick
  obtain ⟨runst, cause, info⟩ := hrun notCfgf
  obtain ⟨config, port, freeTurn⟩ := exec_environment h
  cases s
  cases t
  simp_all [State.withGeneration, State.withOutput]

section
variable {a g : Instr} {s sa sg : State} (ha : IsAcquisition a) (hg : IsGeneration g)
include ha hg

/-- A generation event after an acquisition event does what it does before it, beside the acquisition event's part. -/
theorem exec_after_acquisition (h : exec a s = .next sa) : exec g sa = mapNext (·.withAcquisition sa) (exec g s) :=
  calc exec g sa
    _ = exec g ((s.withAcquisition sa).withOutput sa.output) := congrArg (exec g) (exec_acquisition_eq ha h)
    _ = exec g (s.withAcquisition sa) := exec_withOutput g _ _
    _ = mapNext (·.withAcquisition sa) (exec g s) := exec_withAcquisition hg s sa

/-- An acquisition event after a generation event does what it does before it, beside the generation event's part. -/
theorem exec_after_generation (h : exec g s = .next sg) : exec a sg = mapNext (·.withGeneration sg) (exec a s) :=
  calc exec a sg
    _ = exec a ((s.withGeneration sg).withOutput sg.output) := congrArg (exec a) (exec_generation_eq hg h)
    _ = exec a (s.withGeneration sg) := exec_withOutput a _ _
    _ = mapNext (·.withGeneration sg) (exec a s) := exec_withGeneration ha s sg

/-- The two orders put the two parts together to one state, but for the output record. -/
theorem streams_merge (h1 : exec a s = .next sa) (h2 : exec g s = .next sg) :
    (sa.withGeneration sg).withOutput .none = (sg.withAcquisition sa).withOutput .none :=
  calc (sa.withGeneration sg).withOutput .none
    _ = (((s.withAcquisition sa).withOutput sa.output).withGeneration sg).withOutput .none :=
      congrArg (fun x => (x.withGeneration sg).withOutput .none) (exec_acquisition_eq ha h1)
    _ = (((s.withGeneration sg).withOutput sg.output).withAcquisition sa).withOutput .none := rfl
    _ = (sg.withAcquisition sa).withOutput .none :=
      congrArg (fun x => (x.withAcquisition sa).withOutput .none) (exec_generation_eq hg h2).symm

end

/-! ### The invariants of one stream -/

/-- What is torn at a handover is a service in progress: the one handed over, or one torn before (R121, R124). -/
theorem Exchange.Inv.busy_of_torn {x : Exchange} (h : x.Inv) (ht : x.tornAfterHandover = true) : x.busy = true :=
  (Bool.or_eq_true_iff.mp ht).elim (fun hx => (h.1 hx).1) id

/-- A handover tears the service in progress (R121, R124). -/
theorem Exchange.tornAfterHandover_of_busy {x : Exchange} (hb : x.busy = true) : x.tornAfterHandover = true :=
  Bool.or_eq_true_iff.mpr (.inr hb)

/-- A completion that tears a service is a drop (R121, R125). -/
theorem Exchange.Inv.complete {x : Exchange} (h : x.Inv) : x.complete.Inv := by
  refine ⟨fun ht => ?_, fun hb ht => ?_⟩
  · have hb : x.busy = true := h.busy_of_torn ht
    exact ⟨hb, by simp [hb]⟩
  · exact absurd (tornAfterHandover_of_busy (x := x) hb) (Bool.eq_false_iff.mp ht)

/-- A service begins on the buffer the adapter does not own (R123, R126). -/
theorem Exchange.Inv.accept {x : Exchange} (h : x.Inv) : x.accept.Inv :=
  ⟨fun ht => ⟨rfl, (h.1 ht).2⟩, fun _ _ => rfl⟩

theorem Exchange.finish_inv (x : Exchange) : x.finish.Inv := by
  simp [Exchange.Inv]

/-- A transfer fault is a drop, whether or not it tears a service (R124, R127). -/
theorem Exchange.Inv.rearm {x : Exchange} (h : x.Inv) : x.rearm.Inv :=
  ⟨fun ht => ⟨h.busy_of_torn ht, rfl⟩, fun hb ht =>
    absurd (tornAfterHandover_of_busy (x := x) hb) (Bool.eq_false_iff.mp ht)⟩

/-! ### The invariants of the modulator -/

/-- R171: the feedback bit enters at bit 0. -/
theorem getLsbD_prbsNext_zero (l : BitVec 16) : (prbsNext l).getLsbD 0 = prbsBit l := by
  rw [prbsNext, BitVec.getLsbD_append]
  simp

/-- R171: the other bits move up by one place. -/
theorem getLsbD_prbsNext_succ (l : BitVec 16) {k : Nat} (hk : k < 15) : (prbsNext l).getLsbD (k + 1) = l.getLsbD k := by
  rw [prbsNext, BitVec.getLsbD_append]
  simp [hk]

/-- R172: the register never reaches zero. The low fifteen bits of `l` stay in the register; where they are all zero, the
feedback bit is the sixteenth, so a zero register could only come from a zero register. -/
theorem prbsNext_ne_zero {l : BitVec 16} (h : l ≠ 0) : prbsNext l ≠ 0 := by
  intro hz
  have zero : ∀ k, (prbsNext l).getLsbD k = false := fun k => by rw [hz]; exact BitVec.getLsbD_zero
  have low : ∀ k < 15, l.getLsbD k = false := fun k hk => (getLsbD_prbsNext_succ l hk).symm.trans (zero (k + 1))
  have high : l.getLsbD 15 = false := by
    have hbit : prbsBit l = false := (getLsbD_prbsNext_zero l).symm.trans (zero 0)
    rw [prbsBit, low 14 (by omega), low 12 (by omega), low 3 (by omega)] at hbit
    simpa using hbit
  refine h (BitVec.eq_of_getLsbD_eq fun k hk => ?_)
  obtain hk | rfl : k < 15 ∨ k = 15 := by omega
  · exact (low k hk).trans BitVec.getLsbD_zero.symm
  · exact high

/-- One modulation step keeps the ranges of the modulator's registers (R175). -/
theorem modNext_inv {m : Modulator} (h : m.Inv) (mag : Magnitude) : (modNext mag m).Inv := by
  obtain ⟨hlfsr, -⟩ := h
  refine ⟨prbsNext_ne_zero hlfsr, ?_⟩
  rw [modNext_dc1]
  exact carryDifference_bounds mag m

/-- A modulation run keeps the ranges of the modulator's registers. -/
theorem modRun_inv {n : Nat} {mag : Magnitude} {m m' : Modulator} {v : List GenSample} (hm : m.Inv)
    (h : modRun n mag m = .ok (m', v)) : m'.Inv := by
  induction n generalizing m v with
  | zero =>
    simp only [modRun, Except.ok.injEq, Prod.mk.injEq] at h
    exact h.1 ▸ hm
  | succ n ih =>
    obtain ⟨m1, y, ys, hstep, hrest, -⟩ := modRun_succ_ok h
    obtain ⟨rfl, -⟩ := modStep_ok hstep
    exact ih (modNext_inv hm mag) hrest

/-! ### The canonical form of the generation memory -/

/-- The write of a service keeps the canonical form, torn or not (R178, R179). -/
theorem serviceWrite_wf {s : State} {v : List GenSample} (h : Memory.wf 512 s.genBuf) (hv : v.length = nGen) :
    Memory.wf 512 (serviceWrite s v) := by
  have hin : genBase s.gen.cur + v.length ≤ 512 := hv ▸ genBase_bound s.gen.cur
  unfold serviceWrite
  split
  · exact Memory.wf_tornWrite 512 _ _ _ v _ h hin
  · exact Memory.wf_write 512 _ _ v h hin

/-! ### The invariants of the state -/

theorem State.reset_inv : State.reset.Inv :=
  ⟨by decide, by decide, by decide, Nat.zero_le _, by decide, Memory.wf_reset.1, Memory.wf_reset.2⟩

/-- `RST` restores the invariants, whatever the state (R260). -/
theorem State.restart_inv (s : State) : s.restart.Inv :=
  { State.reset_inv with tBound := Nat.zero_le _ }

/-! One rule per named update: the invariants whose elements it writes are asked for, the others stay. -/

section
variable {s : State}

theorem State.Inv.withOutput (h : s.Inv) (o : OutputRecord) : (s.withOutput o).Inv := { h with }

theorem State.Inv.silent (h : s.Inv) : s.silent.Inv := h.withOutput .none

theorem State.Inv.withAcq (h : s.Inv) {x : Exchange} (hx : x.Inv) : (s.withAcq x).Inv := { h with acqInv := hx }

theorem State.Inv.withGen (h : s.Inv) {x : Exchange} (hx : x.Inv) : (s.withGen x).Inv := { h with genInv := hx }

theorem State.Inv.withAcqBuf (h : s.Inv) {m : Cells 16} (hm : Memory.wf 32 m) : (s.withAcqBuf m).Inv :=
  { h with acqWf := hm }

theorem State.Inv.withGenBuf (h : s.Inv) {m : Cells 8} (hm : Memory.wf 512 m) : (s.withGenBuf m).Inv :=
  { h with genWf := hm }

theorem State.Inv.withLatched (h : s.Inv) (f : Fin nbFir) (i : Fin nbIir) : (s.withLatched f i).Inv := { h with }

theorem State.Inv.withFiltered (h : s.Inv) (file : IirFile) (o0 o1 : Sample) : (s.withFiltered file o0 o1).Inv :=
  { h with }

theorem State.Inv.withModulator (h : s.Inv) {m : Modulator} (hm : m.Inv) : (s.withModulator m).Inv :=
  { h with modInv := hm }

theorem State.Inv.withTidx (h : s.Inv) (k : Fin nTab) : (s.withTidx k).Inv := { h with }

theorem State.Inv.withDebounce (h : s.Inv) {t : Nat} (ht : t ≤ s.config.tLong + 1) (f : Fin nbFir) (i : Fin nbIir) :
    (s.withDebounce t f i).Inv :=
  { h with tBound := ht }

theorem State.Inv.withPort (h : s.Inv) (p : List PortEvent) : (s.withPort p).Inv := { h with }

theorem State.Inv.withTurn (h : s.Inv) (k : Nat) : (s.withTurn k).Inv := { h with }

theorem State.Inv.drawAcq (h : s.Inv) (n : Nat) : (s.drawAcq n).Inv := { h with }

theorem State.Inv.drawGen (h : s.Inv) (n : Nat) : (s.drawGen n).Inv := { h with }

/-- A halt writes a cause with it (R236). -/
theorem State.Inv.takeHalt (h : s.Inv) {c : Cause} (hc : c ≠ .none) (w : EventWord) : (s.takeHalt c w).Inv :=
  { h with haltCause := iff_of_true hc rfl }

end

/-- R35: every event keeps the invariants. -/
theorem exec_inv {i : Instr} {s t : State} (h : s.Inv) (e : exec i s = .next t) : t.Inv := by
  have hc := exec_cases e
  cases i with
  | idle =>
    obtain rfl := hc
    exact h.silent
  | rst =>
    obtain rfl := hc
    exact s.restart_inv
  | acqDone data =>
    obtain ⟨hlen, ⟨-, rfl⟩ | ⟨-, rfl⟩⟩ := hc
    · have hbuf := Memory.wf_write 32 s.acqBuf _ data h.acqWf (hlen ▸ acqBase_bound s.acq.ct)
      exact ((h.withAcqBuf hbuf).withAcq h.acqInv.complete).silent
    · exact h.silent
  | acqBegin =>
    obtain ⟨-, -, rfl⟩ := hc
    exact ((h.withLatched _ _).withAcq h.acqInv.accept).silent
  | acqEnd =>
    obtain ⟨-, -, file, y0, y1, -, rfl⟩ := hc
    exact (((h.withFiltered file y0 y1).withAcq s.acq.finish_inv).drawAcq nAcq).withOutput _
  | acqErr =>
    obtain ⟨-, rfl⟩ | ⟨-, rfl⟩ := hc
    · exact (h.withAcq h.acqInv.rearm).silent
    · exact h.silent
  | genDone =>
    obtain ⟨-, rfl⟩ | ⟨-, rfl⟩ := hc
    · exact ((h.withGen h.genInv.complete).drawGen nGen).withOutput _
    · exact h.silent
  | genBegin =>
    obtain ⟨-, -, rfl⟩ := hc
    exact (h.withGen h.genInv.accept).silent
  | genEnd =>
    obtain ⟨-, -, m, v, hrun, rfl⟩ := hc
    have hbuf := serviceWrite_wf h.genWf (modRun_length hrun)
    exact (((((h.withModulator (modRun_inv h.modInv hrun)).withGenBuf hbuf).withTidx _).withGen s.gen.finish_inv).drawGen
      nGen).silent
  | genErr =>
    obtain ⟨-, rfl⟩ | ⟨-, rfl⟩ := hc
    · exact (h.withGen h.genInv.rearm).silent
    · exact h.silent
  | tick level =>
    obtain ⟨-, rfl⟩ | ⟨-, rfl⟩ := hc
    · exact (h.withDebounce (debTick_bound s.config level s.t h.tBound) _ _).withOutput _
    · exact h.silent
  | cfgf =>
    obtain ⟨-, rfl⟩ | ⟨-, rfl⟩ := hc
    · exact h.takeHalt Cause.noConfusion _
    · exact h.silent

/-- R35, R214: whatever stands on the ports, the invariants are kept. -/
theorem applyEvent_inv {e : PortEvent} {s t : State} (h : s.Inv) (he : applyEvent e s = .next t) : t.Inv := by
  obtain ⟨i, hd, -⟩ | ⟨w, -, ⟨-, rfl⟩ | ⟨-, rfl⟩⟩ := applyEvent_cases he
  · exact exec_inv h (applyEvent_ok hd s ▸ he)
  · exact h.takeHalt Cause.noConfusion w
  · exact h.silent

/-- At reset no buffer of the acquisition stream is one the engine would read (R63). -/
theorem State.reset_acqReady : State.reset.AcqReady :=
  ⟨fun h => absurd h Bool.false_ne_true, fun h => absurd h Bool.false_ne_true⟩

end Sys2Proof.Machine

namespace Sys2Proof.Proofs
open Sys2Proof Sys2Proof.Machine

/-! ### The obligations -/

/-- Settles O50: the frame of `exec`. -/
theorem eachSourceWritesItsOwnElements : Obligations.EachSourceWritesItsOwnElements := fun _ _ _ hi h =>
  exec_keepsForeignElements hi h

/-- Settles O13: an event makes one of the moves of each Exchange, and a move sets the drop flag only as R128 and R270
say. -/
theorem dropRecordsMissedDeadlinesOnly : Obligations.DropRecordsMissedDeadlinesOnly := fun _ _ _ hi h =>
  ⟨(exec_acq_moves hi h).drop_sticky, (exec_gen_moves hi h).drop_sticky,
    (exec_acq_moves hi h).drop_set, (exec_gen_moves hi h).drop_set⟩

/-- Settles O51: in either order the second event does what it does in the first place, and the two parts merge. -/
theorem streamsCommute : Obligations.StreamsCommute := by
  intro a g s ha hg
  refine ⟨fun sa t ea et => ?_, fun sg t eg et => ?_⟩
  · rw [exec_after_acquisition ha hg ea] at et
    obtain ⟨sg, eg, rfl⟩ := mapNext_eq_next et
    exact ⟨sg, sa.withGeneration sg, eg, by rw [exec_after_generation ha hg eg, ea]; rfl, streams_merge ha hg ea eg⟩
  · rw [exec_after_generation ha hg eg] at et
    obtain ⟨sa, ea, rfl⟩ := mapNext_eq_next et
    exact ⟨sa, sg.withAcquisition sa, ea, by rw [exec_after_acquisition ha hg ea, eg]; rfl,
      (streams_merge ha hg ea eg).symm⟩

/-- Settles O45: nothing is pending, in progress, torn or written, and the seed of the register is not zero. -/
theorem invariantsHoldAtReset : Obligations.InvariantsHoldAtReset :=
  ⟨State.reset_inv, State.reset_acqReady⟩

/-- Settles O46: taking the next event from the port keeps the invariants, and so does applying it. -/
theorem stepKeepsTheInvariants : Obligations.StepKeepsTheInvariants := by
  intro s t h hstep
  obtain ⟨p, k, -, happ⟩ := step_cases hstep
  exact applyEvent_inv ((h.withPort p).withTurn k) happ

end Sys2Proof.Proofs
end

section
/-! PROOFS. The memories (20_memory.md): the contracts of R68 and R80 and what they exclude (R240), the parameters (R65), and what
the engine reads of a buffer (R63, R64, R75). The rules that the contracts give for `smacc`, `iir_update`, the cascades and
`mod_step` serve every statement about a filter run or a modulation run that completes. -/

namespace Sys2Proof.Machine

/-! ### Reading a buffer back -/

/-- A read of elements that all hold a defined value draws on no free value (R13, R63). -/
theorem Memory.read_eq_of_written {w : Nat} {free : Nat → BitVec w} {m : Cells w} {base k : Nat} {vs : List (BitVec w)}
    (h : ∀ i < vs.length, Memory.read? m (base + i) = vs[i]?) : Memory.read free m base vs.length k = vs := by
  refine List.ext_getElem? fun i => ?_
  by_cases hi : i < vs.length
  · rw [Memory.getElem?_read free m base vs.length k i hi, h i hi, List.getElem?_eq_getElem hi]
    rfl
  · rw [List.getElem?_eq_none (by simpa using hi), List.getElem?_eq_none (by simpa using hi)]

/-- A service that is not torn reads what its buffer holds (R156 step 1). -/
theorem getElem?_serviceSamples {s : State} (ht : s.acq.torn = false) {i : Nat} (hi : i < nAcq) {v : Sample}
    (hv : Memory.read? s.acqBuf (acqBase s.acq.cur + i) = some v) : (serviceSamples s)[i]? = some v := by
  rw [serviceSamples, ht, if_neg Bool.false_ne_true, Memory.getElem?_read _ _ _ _ _ _ hi, hv]
  rfl

/-- A service that is not torn, on a buffer that holds `data`, reads `data` (R156 step 1). -/
theorem serviceSamples_eq {s : State} {data : List Sample} (ht : s.acq.torn = false) (hl : data.length = nAcq)
    (h : ∀ i < data.length, Memory.read? s.acqBuf (acqBase s.acq.cur + i) = data[i]?) : serviceSamples s = data := by
  rw [serviceSamples, ht, if_neg Bool.false_ne_true, ← hl]
  exact Memory.read_eq_of_written h

/-- Where the adapter's buffer holds `v`, the interval that ends emits `v` (R64, R125 step 1). -/
theorem emission_eq {s : State} {v : List GenSample} (hl : v.length = nGen)
    (h : ∀ i < v.length, Memory.read? s.genBuf (genBase s.gen.ct + i) = v[i]?) : emission s = v := by
  rw [emission, ← hl]
  exact Memory.read_eq_of_written h

/-- A service that is not torn leaves all its samples in its buffer (R178 step 3). -/
theorem read?_serviceWrite_of_untorn {s : State} {v : List GenSample} (ht : s.gen.torn = false) {i : Nat}
    (hi : i < v.length) : Memory.read? (serviceWrite s v) (genBase s.gen.cur + i) = v[i]? := by
  rw [serviceWrite, ht, if_neg Bool.false_ne_true]
  exact Memory.read?_write_inside s.genBuf (genBase s.gen.cur) v i hi

/-! ### The filter run within the contract of R80 -/

theorem dot_cons (x a : Sample) (xs as : List Sample) : dot (x :: xs) (a :: as) = x.toInt * a.toInt + dot xs as := rfl

/-- The contract of R80 counts each coefficient with the largest magnitude a sample can have. -/
theorem natAbs_product_le (x a : Sample) : (x.toInt * a.toInt).natAbs ≤ 32768 * a.toInt.natAbs := by
  rw [Int.natAbs_mul]
  have hlo := BitVec.le_toInt x
  have hhi := BitVec.toInt_lt (x := x)
  exact Nat.mul_le_mul_right _ (by omega)

theorem inAccumulator_of_natAbs_le {v : Int} (h : v.natAbs ≤ 2147483647) : inAccumulator v = true := by
  simp only [inAccumulator, Bool.and_eq_true, decide_eq_true_eq]
  omega

/-- R80: where the start and the coefficients leave room for every product, no intermediate sum leaves the accumulator. -/
theorem accumulate_under_contract {acc : Int} {x a : List Sample} (hl : x.length = a.length)
    (h : acc.natAbs + 32768 * magnitudeSum a ≤ 2147483647) : accumulate acc x a = .ok (acc + dot x a) := by
  have hacc : inAccumulator acc = true := inAccumulator_of_natAbs_le (by omega)
  induction x generalizing acc a with
  | nil =>
    obtain rfl : a = [] := List.length_eq_zero_iff.mp hl.symm
    rw [accumulate_nil, if_pos hacc]
    simp [dot]
  | cons x0 xs ih =>
    cases a with
    | nil => cases hl
    | cons a0 as =>
      simp only [magnitudeSum] at h
      have hprod := natAbs_product_le x0 a0
      have hnext : (acc + x0.toInt * a0.toInt).natAbs + 32768 * magnitudeSum as ≤ 2147483647 := by
        have := Int.natAbs_add_le acc (x0.toInt * a0.toInt)
        omega
      rw [accumulate_cons, if_pos hacc, dot_cons, ← Int.add_assoc]
      exact ih (Nat.succ.inj hl) hnext (inAccumulator_of_natAbs_le (by omega))

/-- Within the contract of R80 `smacc` answers the formula of R141. -/
theorem smacc_under_contract {y0 : Sample} {x a : List Sample} {s : ShiftField} (hl : x.length = a.length)
    (h : y0.toInt.natAbs * 2 ^ s.toNat + 32768 * magnitudeSum a ≤ 2147483647) :
    smacc y0 x a s = .ok (maccFormula y0 x a s) := by
  have hstart : (lsl y0.toInt s.toNat).natAbs = y0.toInt.natAbs * 2 ^ s.toNat := by
    simp [lsl, Int.natAbs_mul, Int.natAbs_pow]
  rw [smacc, accumulate_under_contract hl (hstart ▸ h)]
  rfl

/-- What both channels' cascades leave and answer by the formulas (R156 step 2): the history file and the two outputs. -/
def filterFormula (c : Config) (x : List Sample) (f : Fin nbFir) (i : Fin nbIir) (file : IirFile) : IirFile × Sample × Sample :=
  let a := channelFormula (c.firBank f 0) (c.iirBank i) x file.ch0
  let b := channelFormula (c.firBank f 1) (c.iirBank i) x file.ch1
  (⟨a.1, b.1⟩, a.2, b.2)

section
variable {c : Config} {x : List Sample} {f : Fin nbFir} {i : Fin nbIir} {ch : Channel}

/-- Within the contract of R80 `fir_apply` answers the formula of R146. -/
theorem firApply_under_contract (hx : x.length = nAcq) (h : (c.firBank f ch).InContract) :
    firApply c x f ch = .ok (maccFormula (c.firBank f ch).offset x (c.firBank f ch).taps.toList (c.firBank f ch).shift) :=
  smacc_under_contract (by simp [hx]) h

/-- Within the contract of R80 a section's update is the formula of R150. -/
theorem iirUpdate_under_contract (hist : History) (x0 : Sample) (h : (c.iirBank i).InContract) :
    iirUpdate c hist x0 i = .ok (sectionFormula (c.iirBank i) hist x0) := by
  have hstart : (0 : Sample).toInt.natAbs * 2 ^ (c.iirBank i).shift.toNat + 32768 * magnitudeSum (c.iirBank i).coefficients ≤
      2147483647 := by
    simpa using h
  have hmacc := smacc_under_contract (x := (hist.insert x0).slots) (a := (c.iirBank i).coefficients) rfl hstart
  rw [iirUpdate, iirWith, hmacc]
  rfl

/-- Within the contract of R80 a channel's cascade is its formulas (R155). -/
theorem runCascade_under_contract (k : Cascade) (hx : x.length = nAcq) (h : c.BanksInContract) :
    runCascade c x f i ch k = .ok (channelFormula (c.firBank f ch) (c.iirBank i) x k) := by
  obtain ⟨hfir, hiir⟩ := h
  simp only [runCascade, firApply_under_contract hx (hfir f ch), iirUpdate_under_contract _ _ (hiir i)]
  rfl

/-- Within the contract of R80 the filter run is the formulas of both channels (R156 step 2). -/
theorem runFilter_under_contract (file : IirFile) (hx : x.length = nAcq) (h : c.BanksInContract) :
    runFilter c x f i file = .ok (filterFormula c x f i file) := by
  simp only [runFilter, runCascade_under_contract _ hx h]
  rfl

end

/-- Where `ACQ.END` is enabled it has its effect (R215). -/
theorem exec_acqEnd_enabled {s : State} (hr : s.runst = .run) (hb : s.acq.busy = true) : exec .acqEnd s = acqEndEffect s :=
  State.engine_enabled hr hb acqEndEffect

/-! ### The modulation run within the contract of R68 -/

/-- R175: with `DC[1]` in its range the correction lies in -3..4. -/
theorem correction_bounds (mag : Magnitude) {m : Modulator} (h : m.Inv) :
    -3 ≤ correction mag m ∧ correction mag m ≤ 4 := by
  obtain ⟨-, hlo, hhi⟩ := h
  have hcarry := carryBit_le (stage1Sum mag m)
  have hdiff := carryDifference_bounds mag m
  unfold correction
  omega

section
variable {mag : Magnitude} (hmag : MagnitudeInContract mag)
include hmag

/-- R176: within the contract the output of a step is in range, and the step answers. -/
theorem modStep_under_contract {m : Modulator} (hm : m.Inv) :
    ∃ y, modStep mag m = .ok (modNext mag m, y) ∧
      (magHigh mag).toNat ≤ y.toNat + 3 ∧ y.toNat ≤ (magHigh mag).toNat + 4 := by
  have hcorr := correction_bounds mag hm
  obtain ⟨hlo, hhi⟩ := hmag
  cases hstep : modStep mag m with
  | error f =>
    obtain ⟨-, hout⟩ := modStep_error hstep
    omega
  | ok p =>
    obtain ⟨m', y⟩ := p
    obtain ⟨rfl, hy⟩ := modStep_ok hstep
    exact ⟨y, rfl, by omega, by omega⟩

/-- Within the contract a modulation run of any length completes. -/
theorem modRun_under_contract (n : Nat) {m : Modulator} (hm : m.Inv) : ∃ m' v, modRun n mag m = .ok (m', v) := by
  induction n generalizing m with
  | zero => exact ⟨m, [], rfl⟩
  | succ n ih =>
    obtain ⟨y, hstep, -⟩ := modStep_under_contract hmag hm
    obtain ⟨m', v, hrest⟩ := ih (modNext_inv hm mag)
    exact ⟨m', y :: v, by simp only [modRun, hstep, hrest, bind, Except.bind, pure, Except.pure]⟩

end

/-- A modulation run advances the pseudo-random register once per step (R171, R174 step 1). -/
theorem modRun_lfsr {n : Nat} {mag : Magnitude} {m m' : Modulator} {v : List GenSample} (h : modRun n mag m = .ok (m', v)) :
    m'.lfsr = prbsNext^[n] m.lfsr := by
  induction n generalizing m v with
  | zero =>
    simp only [modRun, Except.ok.injEq, Prod.mk.injEq] at h
    rw [← h.1]
    rfl
  | succ n ih =>
    obtain ⟨m1, y, ys, hstep, hrest, -⟩ := modRun_succ_ok h
    obtain ⟨rfl, -⟩ := modStep_ok hstep
    exact ih hrest

/-- Steps in order are the modulation run: `modRun_steps` backwards (R178 step 2). -/
theorem StepsInOrder.modRun_eq {n : Nat} {mag : Magnitude} {r : Nat → Modulator} {v : List GenSample}
    (h : StepsInOrder mag r v n) : modRun n mag (r 0) = .ok (r n, v) := by
  obtain ⟨hlen, hsteps⟩ := h
  induction n generalizing r v with
  | zero =>
    obtain rfl : v = [] := List.length_eq_zero_iff.mp hlen
    rfl
  | succ n ih =>
    cases v with
    | nil => cases hlen
    | cons y ys =>
      obtain ⟨z, hstep, hz⟩ := hsteps 0 n.succ_pos
      obtain rfl : y = z := Option.some.inj hz
      have hrest : modRun n mag (r 1) = .ok (r (n + 1), ys) :=
        ih (r := fun k => r (k + 1)) (Nat.succ.inj hlen) fun k hk => hsteps (k + 1) (Nat.succ_lt_succ hk)
      simp only [modRun, hstep, hrest, bind, Except.bind, pure, Except.pure]

/-! ### No event writes a parameter -/

theorem applyEvent_config {e : PortEvent} {s t : State} (h : applyEvent e s = .next t) : t.config = s.config := by
  obtain ⟨i, hd, -⟩ | ⟨w, -, ⟨-, rfl⟩ | ⟨-, rfl⟩⟩ := applyEvent_cases h
  · obtain ⟨hconfig, -⟩ := exec_environment (applyEvent_ok hd s ▸ h)
    exact hconfig
  · rfl
  · rfl

/-! ### The contracts exclude the faults -/

/-- If an engine event raises a fault, its effect does. -/
theorem State.engine_fault {s : State} {m : String} {e : Bool} {effect : State → Host.Outcome State Fault Refusal} {f : Fault}
    (h : s.engine m e effect = .fault f) : effect s = .fault f := by
  unfold State.engine at h
  split at h
  · exact h
  · cases h
  · cases h

/-- Only `ACQ.END` and `GEN.END` raise a fault, and only by their runs (R240). -/
theorem exec_fault_cases {i : Instr} {s : State} {f : Fault} (h : exec i s = .fault f) :
    (i = .acqEnd ∧ acqEndEffect s = .fault f) ∨ (i = .genEnd ∧ genEndEffect s = .fault f) := by
  cases i with
  | acqEnd => exact .inl ⟨rfl, State.engine_fault h⟩
  | genEnd => exact .inr ⟨rfl, State.engine_fault h⟩
  | acqBegin => cases State.engine_fault (effect := fun s => .next (acqBeginEffect s)) h
  | genBegin => cases State.engine_fault (effect := fun s => .next (genBeginEffect s)) h
  | acqDone data =>
    simp only [exec, execAcqDone] at h
    split at h <;> cases h
  | idle | acqErr | genDone | genErr | tick | cfgf | rst => cases h

/-- R240: within the contracts and the modulator's ranges no event raises a fault. -/
theorem exec_noFault {i : Instr} {s : State} (hc : s.config.InContract) (hm : s.modu.Inv) : NoFault (exec i s) := by
  obtain ⟨hbanks, htable⟩ := hc
  intro f hf
  obtain ⟨-, hacq⟩ | ⟨-, hgen⟩ := exec_fault_cases hf
  · rw [acqEndEffect_ok (runFilter_under_contract s.iirs (length_serviceSamples s) hbanks)] at hacq
    cases hacq
  · obtain ⟨m, v, hrun⟩ := modRun_under_contract (htable s.tidx) nGen hm
    rw [genEndEffect_ok hrun] at hgen
    cases hgen

/-- A reserved word or an impossible payload raises no fault (R94, R95). -/
theorem takeRejected_noFault (r : Reject) (s : State) : NoFault (takeRejected r s) := by
  intro f hf
  cases r <;> cases hf

/-- R240, for whatever stands on the ports. -/
theorem applyEvent_noFault {e : PortEvent} {s : State} (hc : s.config.InContract) (hm : s.modu.Inv) :
    NoFault (applyEvent e s) := by
  unfold applyEvent
  split
  · exact exec_noFault hc hm
  · exact takeRejected_noFault _ s

/-- R175: every event keeps the ranges of the modulator's registers, whatever else holds of the state. -/
theorem exec_modulator_inv {i : Instr} {s t : State} (hm : s.modu.Inv) (h : exec i s = .next t) : t.modu.Inv := by
  have hc := exec_cases h
  cases i with
  | genEnd =>
    obtain ⟨-, -, m, v, hrun, rfl⟩ := hc
    exact modRun_inv hm hrun
  | rst =>
    obtain rfl := hc
    exact State.reset_inv.modInv
  | genDone | genErr =>
    obtain ⟨-, rfl⟩ | ⟨-, rfl⟩ := hc <;> exact hm
  | genBegin =>
    obtain ⟨-, -, rfl⟩ := hc
    exact hm
  | idle | acqDone | acqBegin | acqEnd | acqErr | tick | cfgf =>
    obtain ⟨-, hgen, -⟩ := exec_keepsForeignElements Instr.noConfusion h
    obtain ⟨-, hmodu, -⟩ := hgen (by simp [IsGeneration])
    exact hmodu ▸ hm

/-- R175, for whatever stands on the ports. -/
theorem applyEvent_modulator_inv {e : PortEvent} {s t : State} (hm : s.modu.Inv) (h : applyEvent e s = .next t) :
    t.modu.Inv := by
  obtain ⟨i, hd, -⟩ | ⟨w, -, ⟨-, rfl⟩ | ⟨-, rfl⟩⟩ := applyEvent_cases h
  · exact exec_modulator_inv hm (applyEvent_ok hd s ▸ h)
  · exact hm
  · exact hm

/-! ### The engine reads no unwritten acquisition sample -/

/-- The condition is one on the acquisition stream's Exchange and buffers. -/
theorem State.AcqReady.of_same {s t : State} (h : s.AcqReady) (hx : t.acq = s.acq) (hb : t.acqBuf = s.acqBuf) : t.AcqReady := by
  obtain ⟨hpend, hbusy⟩ := h
  constructor
  · rw [State.AcqWritten, hx, hb]
    exact hpend
  · rw [State.AcqWritten, hx, hb]
    exact hbusy

/-- A service that a handover leaves in progress is torn, so nothing is asked of its buffer (R121, R124). -/
theorem Exchange.not_untorn_after_handover {x : Exchange} (hb : x.busy = true) (ht : x.tornAfterHandover = false) : False :=
  absurd (Exchange.tornAfterHandover_of_busy hb) (Bool.eq_false_iff.mp ht)

/-- `ACQ.DONE` hands over the buffer it has just written (R121). -/
theorem acqDoneEffect_acqReady {data : List Sample} (s : State) (hl : data.length = nAcq) :
    (acqDoneEffect data s).AcqReady := by
  refine ⟨fun _ i hi => ?_, fun hb ht => (Exchange.not_untorn_after_handover (x := s.acq) hb ht).elim⟩
  have hct : ~~~(acqDoneEffect data s).acq.ct = s.acq.ct := BitVec.not_not
  have hwritten := Memory.read?_write_inside s.acqBuf (acqBase s.acq.ct) data i (hl ▸ hi)
  rw [hct]
  exact hwritten ▸ by simp [hl, hi]

/-- R63: every event keeps it that what the engine would read is written. -/
theorem exec_acqReady {i : Instr} {s t : State} (h : s.AcqReady) (e : exec i s = .next t) : t.AcqReady := by
  have hc := exec_cases e
  cases i with
  | acqDone data =>
    obtain ⟨hlen, ⟨-, rfl⟩ | ⟨-, rfl⟩⟩ := hc
    · exact acqDoneEffect_acqReady s hlen
    · exact h.of_same rfl rfl
  | acqBegin =>
    obtain ⟨-, hbegin, rfl⟩ := hc
    have hpend : s.acq.pend = true := (Bool.and_eq_true_iff.mp hbegin).1
    exact ⟨fun hp => absurd hp Bool.false_ne_true, fun _ _ => h.pendWritten hpend⟩
  | acqEnd =>
    obtain ⟨-, -, file, y0, y1, -, rfl⟩ := hc
    exact ⟨h.pendWritten, fun hb => absurd hb Bool.false_ne_true⟩
  | acqErr =>
    obtain ⟨-, rfl⟩ | ⟨-, rfl⟩ := hc
    · exact ⟨fun hp => absurd hp Bool.false_ne_true, fun hb ht =>
        (Exchange.not_untorn_after_handover (x := s.acq) hb ht).elim⟩
    · exact h.of_same rfl rfl
  | rst =>
    obtain rfl := hc
    exact State.reset_acqReady.of_same rfl rfl
  | idle | genDone | genBegin | genEnd | genErr | tick | cfgf =>
    obtain ⟨hacq, -⟩ := exec_keepsForeignElements Instr.noConfusion e
    obtain ⟨hx, -, -, -, -, -, hb, -⟩ := hacq (by simp [IsAcquisition])
    exact h.of_same hx hb

/-- R63, for whatever stands on the ports. -/
theorem applyEvent_acqReady {e : PortEvent} {s t : State} (h : s.AcqReady) (he : applyEvent e s = .next t) : t.AcqReady := by
  obtain ⟨i, hd, -⟩ | ⟨w, -, ⟨-, rfl⟩ | ⟨-, rfl⟩⟩ := applyEvent_cases he
  · exact exec_acqReady h (applyEvent_ok hd s ▸ he)
  · exact h.of_same rfl rfl
  · exact h.of_same rfl rfl

/-! ### A timely acquisition frame -/

theorem runEvents_cons {i : Instr} {rest : List Instr} {s t : State} (h : exec i s = .next t) :
    runEvents (i :: rest) s = runEvents rest t := by
  rw [runEvents, h]

/-- The state in which a timely frame's service ends: `ACQ.DONE` with the frame's samples, then `ACQ.BEGIN`. -/
def servingFrame (data : List Sample) (s : State) : State :=
  acqBeginEffect (acqDoneEffect data s)

/-- A timely frame comes down to `ACQ.END` in the state `servingFrame` (R99, R121, R123). -/
theorem runEvents_acqFrame {s : State} {data : List Sample} (hr : s.runst = .run) (hb : s.acq.busy = false)
    (hl : data.length = nAcq) : runEvents (acqFrame data) s = runEvents [.acqEnd] (servingFrame data s) := by
  have hdone : exec (.acqDone data) s = .next (acqDoneEffect data s) := by
    simp only [exec, execAcqDone, if_pos hl, State.external_run hr]
  have hcan : (acqDoneEffect data s).acq.canBegin = true := by
    simp [acqDoneEffect, Exchange.canBegin, hb]
  have hbegin : exec .acqBegin (acqDoneEffect data s) = .next (servingFrame data s) :=
    State.engine_enabled (s := acqDoneEffect data s) hr hcan (fun s => .next (acqBeginEffect s))
  rw [acqFrame, acqService, runEvents_cons hdone, runEvents_cons hbegin]

/-- The service of a timely frame reads the frame's own samples (R75 (a)). -/
theorem serviceSamples_servingFrame {s : State} {data : List Sample} (hb : s.acq.busy = false) (ht : s.acq.torn = false)
    (hl : data.length = nAcq) : serviceSamples (servingFrame data s) = data := by
  have htorn : (servingFrame data s).acq.torn = false := by
    simp [servingFrame, acqBeginEffect, acqDoneEffect, hb, ht]
  have hcur : (servingFrame data s).acq.cur = s.acq.ct := BitVec.not_not
  refine serviceSamples_eq htorn hl fun i hi => ?_
  rw [hcur]
  exact Memory.read?_write_inside s.acqBuf (acqBase s.acq.ct) data i hi

end Sys2Proof.Machine

namespace Sys2Proof.Proofs
open Sys2Proof Sys2Proof.Machine

/-! ### The obligations -/

/-- Settles O47: taking the next event from the port touches no buffer, and every event keeps the condition. -/
theorem stepKeepsAcquisitionBuffersWritten : Obligations.StepKeepsAcquisitionBuffersWritten := by
  intro s t h hstep
  obtain ⟨p, k, -, happ⟩ := step_cases hstep
  exact applyEvent_acqReady (h.of_same (t := (s.withPort p).withTurn k) rfl rfl) happ

/-- Settles O49: every event leaves the configuration, and so does taking the next event from the port. -/
theorem parametersAreNeverWritten : Obligations.ParametersAreNeverWritten := by
  intro s t hstep
  obtain ⟨p, k, -, happ⟩ := step_cases hstep
  exact applyEvent_config (s := (s.withPort p).withTurn k) happ

/-- Settles O48: the runs of both streams complete within the contracts, the parameters are never written, and every event
keeps the modulator's ranges. -/
theorem contractExcludesFaults : Obligations.ContractExcludesFaults := by
  intro s hc hm
  refine ⟨?_, fun t hstep => ⟨parametersAreNeverWritten s t hstep ▸ hc, ?_⟩⟩
  · obtain ⟨p, k, hnext⟩ := nextEvent_state s
    rw [step, hnext]
    exact applyEvent_noFault (s := (s.withPort p).withTurn k) hc hm
  · obtain ⟨p, k, -, happ⟩ := step_cases hstep
    exact applyEvent_modulator_inv (s := (s.withPort p).withTurn k) hm happ

/-- Settles O15: the sum stays in the accumulator, and narrowing stores its clamped value. -/
theorem firUnderContractIsTheFormula : Obligations.FirUnderContractIsTheFormula := by
  intro c m ch buf hl hc
  exact ⟨_, firApply_under_contract hl hc, narrow_toInt _⟩

/-- Settles O20: the filter run is its formulas on the samples of the service. -/
theorem acqEndFiltersTheBuffer : Obligations.AcqEndFiltersTheBuffer := by
  intro s hr hb hc
  have hend := acqEndEffect_ok (runFilter_under_contract (f := s.lmf) s.iirs (length_serviceSamples s) hc)
  exact ⟨serviceSamples s, s.freeAcq + nAcq, length_serviceSamples s, fun ht i hi v => getElem?_serviceSamples ht hi,
    (exec_acqEnd_enabled hr hb).trans hend⟩

/-- Settles O22: the frame's service reads the frame's own samples, and the filter run is its formulas on them. -/
theorem timelyFrameFiltersItsOwnSamples : Obligations.TimelyFrameFiltersItsOwnSamples := by
  intro s data hr hb ht hc hl
  have hrun : runFilter s.config (serviceSamples (servingFrame data s)) s.firMode s.iirMode s.iirs =
      .ok (filterFormula s.config data s.firMode s.iirMode s.iirs) := by
    rw [serviceSamples_servingFrame hb ht hl]
    exact runFilter_under_contract s.iirs hl hc
  have hend := (exec_acqEnd_enabled (s := servingFrame data s) hr rfl).trans
    (acqEndEffect_ok (s := servingFrame data s) hrun)
  exact ⟨_, (runEvents_acqFrame hr hb hl).trans (runEvents_cons hend), rfl, rfl, rfl, rfl, rfl, rfl, rfl⟩

/-- Settles O26: the correction lies in -3..4, so the output is in range. -/
theorem modStepUnderContract : Obligations.ModStepUnderContract := by
  intro mag m hm hmag
  obtain ⟨y, hstep, hlo, hhi⟩ := modStep_under_contract hmag hm
  exact ⟨modNext mag m, y, hstep, hlo, hhi, modNext_inv hm mag⟩

/-- Settles O30: the modulation run completes, and advances the register once per step. -/
theorem genEndCompletesUnderContract : Obligations.GenEndCompletesUnderContract := by
  intro s hr hb hm hmag
  obtain ⟨m, v, hrun⟩ := modRun_under_contract hmag nGen hm
  refine ⟨_, (State.engine_enabled hr hb genEndEffect).trans (genEndEffect_ok hrun), ?_⟩
  exact ⟨modRun_inv hm hrun, modRun_lfsr hrun, nextBank_val nTab s.tidx, rfl, rfl⟩

/-- Settles O31: the steps in order are the run of the service, an untorn service writes all its samples, and the completion
reads them back. -/
theorem emissionIsWhatTheServiceWrote : Obligations.EmissionIsWhatTheServiceWrote := by
  intro s t u r v htorn h0 hsteps hend hbuf hct hr
  obtain ⟨-, -, m, v', hrun, ht⟩ := exec_cases hend
  obtain ⟨-, rfl⟩ : r nGen = m ∧ v = v' := by
    have hv := hsteps.modRun_eq
    rw [h0, hrun] at hv
    simpa [eq_comm] using hv
  have hgenBuf : t.genBuf = serviceWrite s v := by simp [ht]
  have hlen : v.length = nGen := modRun_length hrun
  have hread : ∀ i < v.length, Memory.read? u.genBuf (genBase u.gen.ct + i) = v[i]? := fun i hi => by
    rw [hct, hbuf i (hi.trans_eq hlen), hgenBuf, read?_serviceWrite_of_untorn htorn hi]
  refine ⟨genDoneEffect u, State.external_run hr genDoneEffect, ?_⟩
  rw [genDoneEffect, State.withOutput_output, emission_eq hlen hread]

/-- Settles O16: bank 0 is the document's record, which meets the contract of R80, so the formula on its taps is a closed sum. -/
theorem scenarioA : Obligations.ScenarioA := by
  intro c
  have hbank : c.firBank 0 0 = documentedFir := rfl
  have hc : documentedFir.InContract := by decide
  rw [firApply_under_contract rfl (hbank ▸ hc), hbank]
  exact congrArg Except.ok (by decide)

end Sys2Proof.Proofs
end

section
/-! PROOFS. The encoding (30_encoding.md): the words of R92 and their decoding (R94, R95), the bits of an event, the encoded form
of a trace (R98), and a run of timely generation frames (R99). The two directions between a word and its event serve every
statement about what the decoder answers. -/

namespace Sys2Proof

/-! ### From an event's word to the event -/

/-- R91: a word of the Z format is its operation field followed by four zero bits. -/
theorem toNat_of_lowHalf_zero {w : EventWord} (h : w.extractLsb' 0 4 = 0) : w.toNat = 16 * (w.extractLsb' 4 4).toNat := by
  have hlow : w.toNat % 16 = 0 := by simpa [BitVec.extractLsb'_toNat] using congrArg BitVec.toNat h
  have hhigh : (w.extractLsb' 4 4).toNat = w.toNat / 16 % 16 := by
    rw [BitVec.extractLsb'_toNat, Nat.shiftRight_eq_div_pow]
  have hlt := w.isLt
  omega

/-- R91: of the Z format only operation 1, `ACQ.DONE`, looks at the data port. -/
theorem decodeZ_ignores_data {op : Nat} (h : op ≠ 1) (w : EventWord) (data data' : List Sample) :
    decodeZ op ⟨w, data⟩ = decodeZ op ⟨w, data'⟩ := by
  unfold decodeZ
  split
  case h_2 => contradiction
  all_goals rfl

/-- R90, R91: only the word of `ACQ.DONE` looks at the data port. -/
theorem decode_ignores_data {w : EventWord} (h : w ≠ 0x10) (data data' : List Sample) :
    decode ⟨w, data⟩ = decode ⟨w, data'⟩ := by
  by_cases hlow : w.extractLsb' 0 4 = 0
  · have hop : (w.extractLsb' 4 4).toNat ≠ 1 := fun hop =>
      h (BitVec.eq_of_toNat_eq (by rw [toNat_of_lowHalf_zero hlow, hop]; rfl))
    simp only [decode, decodeZ_ignores_data hop w data data']
  · simp only [decode, hlow, false_and, if_false]

/-- R92, R95: the word of `ACQ.DONE` is the event with its 16 samples, or a payload that cannot be. -/
theorem decode_acqDoneWord (data : List Sample) :
    decode ⟨0x10, data⟩ = if data.length = nAcq then .ok (.acqDone data) else .error .badPayload := by
  simp [decode, decodeZ, isZ]

/-- R90, R92: the word of an event without a payload decides the event, whatever stands on the data port. -/
theorem decode_encodedWord {i : Instr} (h : ∀ payload, i ≠ .acqDone payload) (data : List Sample) :
    decode ⟨(encode i).word, data⟩ = .ok i := by
  have key : (encode i).word ≠ 0x10 → decode (encode i) = .ok i → decode ⟨(encode i).word, data⟩ = .ok i :=
    fun hw hd => (decode_ignores_data hw data (encode i).data).trans hd
  cases i with
  | acqDone payload => exact absurd rfl (h payload)
  | tick level => cases level <;> exact key (by decide) rfl
  | idle | acqBegin | acqEnd | acqErr | genDone | genBegin | genEnd | genErr | cfgf | rst => exact key (by decide) rfl

/-- R92: a mask of all ones compares the whole word. -/
theorem eq_of_and_fullMask {w m : EventWord} (h : w &&& 0xFF = m) : w = m :=
  BitVec.and_allOnes.symm.trans h

/-- R92, R95: the seven high bits of `TICK` leave two words, told apart by the level. -/
theorem eq_tickWord {w : EventWord} (h : w.extractLsb' 1 7 = 0b1001000) : w = (encode (.tick (w.getLsbD 0))).word := by
  revert w
  decide

/-- R92: the row of `TICK` compares the seven high bits. -/
theorem eq_tickWord_of_and {w : EventWord} (h : w &&& 0xFE = 0x90) : w = (encode (.tick (w.getLsbD 0))).word := by
  have hbits : (w &&& 0xFE).extractLsb' 1 7 = 0b1001000 := h ▸ rfl
  rw [BitVec.extractLsb'_and] at hbits
  exact eq_tickWord (BitVec.and_allOnes.symm.trans hbits)

/-! ### From what the decoder answers to the word -/

/-- R92: the operation field of an answer of the Z format is the high half of the event's own word. -/
theorem decodeZ_ok_word {op : Nat} {e : PortEvent} {i : Instr} (h : decodeZ op e = .ok i) :
    (encode i).word.toNat = 16 * op := by
  unfold decodeZ at h
  split at h
  case h_2 =>
    split at h
    · cases h; rfl
    · cases h
  all_goals cases h <;> rfl

/-- R95: a Z format word is reserved as itself, or it is `ACQ.DONE` without its payload. -/
theorem decodeZ_error_cases {op : Nat} {e : PortEvent} {r : Reject} (h : decodeZ op e = .error r) :
    r = .reserved e.word ∨ (r = .badPayload ∧ op = 1) := by
  unfold decodeZ at h
  split at h
  case h_2 =>
    split at h
    · cases h
    · cases h; exact .inr ⟨rfl, rfl⟩
  all_goals cases h <;> exact .inl rfl

/-- R92: the decoder answers an event only for the event's own word. -/
theorem decode_ok_word {e : PortEvent} {i : Instr} (h : decode e = .ok i) : e.word = (encode i).word := by
  unfold decode at h
  split_ifs at h with hrst hz htick
  · cases h; exact hrst
  · exact BitVec.eq_of_toNat_eq ((toNat_of_lowHalf_zero hz.1).trans (decodeZ_ok_word h).symm)
  · cases h; exact eq_tickWord htick

/-- R94, R95: the decoder rejects a word as itself, or `ACQ.DONE` for its payload. -/
theorem decode_error_cases {e : PortEvent} {r : Reject} (h : decode e = .error r) :
    r = .reserved e.word ∨ (r = .badPayload ∧ e.word = 0x10) := by
  unfold decode at h
  split_ifs at h with hrst hz htick
  · obtain hr | ⟨hr, hop⟩ := decodeZ_error_cases h
    · exact .inl hr
    · have hw := toNat_of_lowHalf_zero hz.1
      rw [hop] at hw
      exact .inr ⟨hr, BitVec.eq_of_toNat_eq hw⟩
  · cases h; exact .inl rfl

/-! ### The legal words -/

/-- The 13 legal words (R92, R94). -/
def legalWords : List EventWord :=
  [0x00, 0x10, 0x20, 0x30, 0x40, 0x50, 0x60, 0x70, 0x80, 0x90, 0x91, 0xA0, 0xFF]

/-- The legal words are the words of the events (R92). -/
theorem mem_legalWords_iff (w : EventWord) : w ∈ legalWords ↔ ∃ i : Instr, (encode i).word = w := by
  simp only [legalWords, List.mem_cons, List.not_mem_nil, or_false]
  constructor
  · rintro (rfl | rfl | rfl | rfl | rfl | rfl | rfl | rfl | rfl | rfl | rfl | rfl | rfl)
    exacts [⟨.idle, rfl⟩, ⟨.acqDone [], rfl⟩, ⟨.acqBegin, rfl⟩, ⟨.acqEnd, rfl⟩, ⟨.acqErr, rfl⟩, ⟨.genDone, rfl⟩,
      ⟨.genBegin, rfl⟩, ⟨.genEnd, rfl⟩, ⟨.genErr, rfl⟩, ⟨.tick false, rfl⟩, ⟨.tick true, rfl⟩, ⟨.cfgf, rfl⟩, ⟨.rst, rfl⟩]
  · rintro ⟨i, rfl⟩
    cases i with
    | tick level => cases level <;> simp [encode]
    | _ => simp [encode]

/-- R94: the word of an event is not reserved, whatever stands on the data port. -/
theorem decode_encodedWord_ne_reserved (i : Instr) (data : List Sample) (w : EventWord) :
    decode ⟨(encode i).word, data⟩ ≠ .error (.reserved w) := by
  by_cases hi : ∃ payload, i = .acqDone payload
  · obtain ⟨payload, rfl⟩ := hi
    rw [encode, decode_acqDoneWord]
    split <;> simp
  · rw [decode_encodedWord (not_exists.mp hi)]
    exact nofun

/-! ### The bits of an event -/

/-- A word below the bits of a number is read back by cutting the number to the word's width. -/
theorem ofNat_toNat_add_mul {n : Nat} (x : BitVec n) (k : Nat) : BitVec.ofNat n (x.toNat + 2 ^ n * k) = x := by
  apply BitVec.eq_of_toNat_eq
  rw [BitVec.toNat_ofNat, Nat.add_mul_mod_self_left, Nat.mod_eq_of_lt x.isLt]

/-- What stands above a word is read back by dividing the word away. -/
theorem toNat_add_mul_div {n : Nat} (x : BitVec n) (k : Nat) : (x.toNat + 2 ^ n * k) / 2 ^ n = k := by
  rw [Nat.add_mul_div_left _ _ (Nat.two_pow_pos n), Nat.div_eq_of_lt x.isLt, Nat.zero_add]

/-- The samples of a payload come back from its number. -/
theorem unpackSamples_packSamples (data : List Sample) : unpackSamples data.length (packSamples data) = data := by
  induction data with
  | nil => rfl
  | cons x rest ih =>
    have hlow : BitVec.ofNat 16 (x.toNat + 65536 * packSamples rest) = x := ofNat_toNat_add_mul x _
    have hhigh : (x.toNat + 65536 * packSamples rest) / 65536 = packSamples rest := toNat_add_mul_div x _
    rw [List.length_cons, packSamples, unpackSamples, hlow, hhigh, ih]

/-- A payload takes 16 bits for each sample. -/
theorem packSamples_lt (data : List Sample) : packSamples data < 65536 ^ data.length := by
  induction data with
  | nil => exact Nat.one_pos
  | cons x rest ih =>
    have hx := x.isLt
    rw [packSamples, List.length_cons, Nat.pow_succ]
    omega

/-- 264 bits hold the word and a payload of 16 samples, each in its place. -/
theorem portEventOfBits_pack (w : EventWord) {data : List Sample} (hl : data.length ≤ nAcq) :
    portEventOfBits 264 (w.toNat + 256 * packSamples data) = ⟨w, unpackSamples nAcq (packSamples data)⟩ := by
  have hp : packSamples data < 65536 ^ nAcq :=
    (packSamples_lt data).trans_le (Nat.pow_le_pow_right (by decide) hl)
  have hfit : (w.toNat + 256 * packSamples data) % 2 ^ 264 = w.toNat + 256 * packSamples data :=
    Nat.mod_eq_of_lt (by norm_num at hp ⊢; omega)
  have hlow : BitVec.ofNat 8 (w.toNat + 256 * packSamples data) = w := ofNat_toNat_add_mul w _
  have hhigh : (w.toNat + 256 * packSamples data) / 256 = packSamples data := toNat_add_mul_div w _
  simp only [portEventOfBits, hfit, hlow, hhigh]

/-- R91, R95: a well-formed event has at most 16 samples. -/
theorem length_encode_data_le {i : Instr} (h : i.WellFormed) : (encode i).data.length ≤ nAcq := by
  cases i with
  | acqDone data => exact (beq_iff_eq.mp h).le
  | _ => exact Nat.zero_le nAcq

/-- What stands on the ports for the bits of a well-formed event decodes to the event. -/
theorem decode_portEventOfBits_encodeBits {i : Instr} (h : i.WellFormed) :
    decode (portEventOfBits 264 (encodeBits i)) = .ok i := by
  rw [encodeBits, portEventOfBits_pack _ (length_encode_data_le h)]
  by_cases hi : ∃ data, i = .acqDone data
  · obtain ⟨data, rfl⟩ := hi
    have hl : data.length = nAcq := beq_iff_eq.mp h
    rw [encode, ← hl, unpackSamples_packSamples]
    exact decode_encode h
  · exact decode_encodedWord (not_exists.mp hi) _

/-! ### The encoded form of a trace -/

/-- Samples are collected until the next event word (R98). -/
theorem groupItems_samples (data : List Sample) (items : List TraceItem) :
    groupItems (data.map .sample ++ items) = (data ++ (groupItems items).1, (groupItems items).2) := by
  induction data with
  | nil => rfl
  | cons x rest ih => rw [List.map_cons, List.cons_append, groupItems, ih, List.cons_append]

/-- An event's items in front of items that begin with a word, or of none, give the event back (R98). -/
theorem groupItems_traceItems (e : PortEvent) {items : List TraceItem} {events : List PortEvent}
    (h : groupItems items = ([], events)) : groupItems (traceItems e ++ items) = ([], e :: events) := by
  rw [traceItems, List.cons_append, groupItems, groupItems_samples, h, List.append_nil]

/-- The encoded form of a trace splits into the trace's events (R98). -/
theorem groupItems_encodeTrace (tr : List Instr) : groupItems (encodeTrace tr) = ([], tr.map encode) := by
  induction tr with
  | nil => rfl
  | cons i rest ih => exact groupItems_traceItems (encode i) ih

/-- Events that all decode give the list of what they decode to. -/
theorem decodeEvents_encode {tr : List Instr} (h : ∀ i ∈ tr, i.WellFormed) : decodeEvents (tr.map encode) = .ok tr := by
  induction tr with
  | nil => rfl
  | cons i rest ih =>
    obtain ⟨hi, hrest⟩ := List.forall_mem_cons.mp h
    rw [List.map_cons, decodeEvents, decode_encode hi, ih hrest]

end Sys2Proof

namespace Sys2Proof.Machine

/-! ### A timely generation frame -/

/-- What a timely generation frame needs, and keeps: no service pending or in progress, and the contract of R68 with the
modulator's ranges, under which the service completes. -/
structure GenQuiet (s : State) : Prop where
  running : s.runst = .run
  notPending : s.gen.pend = false
  notBusy : s.gen.busy = false
  modInv : s.modu.Inv
  tableInContract : s.config.TableInContract

/-- The state in which a timely generation frame's service ends: `GEN.DONE`, then `GEN.BEGIN`. -/
def servingGenFrame (s : State) : State :=
  genBeginEffect (genDoneEffect s)

@[simp] theorem servingGenFrame_runst (s : State) : (servingGenFrame s).runst = s.runst := rfl
@[simp] theorem servingGenFrame_config (s : State) : (servingGenFrame s).config = s.config := rfl
@[simp] theorem servingGenFrame_gen (s : State) : (servingGenFrame s).gen = s.gen.complete.accept := rfl
@[simp] theorem servingGenFrame_modu (s : State) : (servingGenFrame s).modu = s.modu := rfl
@[simp] theorem servingGenFrame_tidx (s : State) : (servingGenFrame s).tidx = s.tidx := rfl

/-- A timely generation frame comes down to `GEN.END` in the state `servingGenFrame` (R99, R125, R126). -/
theorem runEvents_genFrame {s : State} (hr : s.runst = .run) (hb : s.gen.busy = false) (rest : List Instr) :
    runEvents (genFrame ++ rest) s = runEvents (.genEnd :: rest) (servingGenFrame s) := by
  have hdone : exec .genDone s = .next (genDoneEffect s) := State.external_run hr genDoneEffect
  have hcan : (genDoneEffect s).gen.canBegin = true := by
    simp [genDoneEffect, Exchange.canBegin, hb]
  have hbegin : exec .genBegin (genDoneEffect s) = .next (servingGenFrame s) :=
    State.engine_enabled (s := genDoneEffect s) hr hcan (fun s => .next (genBeginEffect s))
  exact (runEvents_cons hdone).trans (runEvents_cons hbegin)

/-- R177, R178, R180: a timely frame completes, takes one entry of the table and 256 steps of the register, and leaves the
stream ready for the next frame. -/
theorem genFrame_advances {s : State} (h : GenQuiet s) :
    ∃ t, (∀ rest, runEvents (genFrame ++ rest) s = runEvents rest t) ∧ GenQuiet t ∧
      t.tidx.val = (s.tidx.val + 1) % 36 ∧ t.modu.lfsr = prbsNext^[256] s.modu.lfsr := by
  obtain ⟨hr, -, hb, hm, htable⟩ := h
  obtain ⟨t, hend, hinv, hlfsr, htidx, hbusy, -⟩ :=
    Proofs.genEndCompletesUnderContract (servingGenFrame s) hr rfl hm (htable s.tidx)
  refine ⟨t, fun rest => (runEvents_genFrame hr hb rest).trans (runEvents_cons hend), ?_, htidx, hlfsr⟩
  obtain ⟨-, -, m, v, -, rfl⟩ := exec_cases hend
  exact ⟨by simp [hr], by simp, hbusy, hinv, by simpa using htable⟩

/-- R180, over any number of timely frames. -/
theorem genFrames_advance (n : Nat) {s : State} (h : GenQuiet s) :
    ∃ t, runEvents (List.replicate n genFrame).flatten s = .next t ∧ GenQuiet t ∧
      t.tidx.val = (s.tidx.val + n) % 36 ∧ t.modu.lfsr = prbsNext^[256 * n] s.modu.lfsr := by
  induction n generalizing s with
  | zero => exact ⟨s, rfl, h, (Nat.mod_eq_of_lt s.tidx.isLt).symm, rfl⟩
  | succ n ih =>
    obtain ⟨u, hframe, hu, htidx, hlfsr⟩ := genFrame_advances h
    obtain ⟨t, hrun, ht, htidx', hlfsr'⟩ := ih hu
    refine ⟨t, ?_, ht, ?_, ?_⟩
    · rw [List.replicate_succ, List.flatten_cons, hframe, hrun]
    · rw [htidx', htidx]
      omega
    · rw [hlfsr', hlfsr, ← Function.iterate_add_apply, Nat.mul_succ]

end Sys2Proof.Machine

namespace Sys2Proof.Proofs
open Sys2Proof Sys2Proof.Machine

/-! ### The obligations -/

/-- Settles O3: the bits give back the word and, where there is one, the payload, and the word decodes to its event. -/
theorem decodeOfEncodedBits : Obligations.DecodeOfEncodedBits := by
  intro i h
  rw [decodeTableWord, decode_portEventOfBits_encodeBits h]

/-- Settles O4: the items split into the trace's events, and each of them decodes to itself. -/
theorem decodeOfEncodedTrace : Obligations.DecodeOfEncodedTrace := by
  intro tr h
  rw [decodeTrace, groupItems_encodeTrace]
  exact decodeEvents_encode h

/-- Settles O32, by induction on the number of frames: each takes one entry of the table and 256 steps of the register. -/
theorem tableAdvancesOncePerFrame : Obligations.TableAdvancesOncePerFrame := by
  intro n s hr hp hb hm htable
  obtain ⟨t, hrun, ht, htidx, hlfsr⟩ := genFrames_advance n ⟨hr, hp, hb, hm, htable⟩
  exact ⟨t, hrun, htidx, hlfsr, ht.notPending, ht.notBusy⟩

/-- Settles O1: a row of R92 leaves one word, or two for `TICK`, and that word is the one of the row's event. -/
theorem legalWordsDecodeToTheirEvents : Obligations.LegalWordsDecodeToTheirEvents := by
  intro w data hl
  have row : ∀ i : Instr, (∀ payload, i ≠ .acqDone payload) → w = (encode i).word → decode ⟨w, data⟩ = .ok i :=
    fun i hi hw => hw ▸ decode_encodedWord hi data
  refine ⟨?idle, ?acqDone, ?acqBegin, ?acqEnd, ?acqErr, ?genDone, ?genBegin, ?genEnd, ?genErr, ?tick, ?cfgf, ?rst⟩
  case acqDone =>
    intro h
    rw [eq_of_and_fullMask h, decode_acqDoneWord, if_pos hl]
  case tick => exact fun h => row (.tick _) nofun (eq_tickWord_of_and h)
  all_goals exact fun h => row _ nofun (eq_of_and_fullMask h)

/-- Settles O2: the word of an event is not reserved; where the decoder answers anything but `reserved`, the word is an
event's. -/
theorem otherWordsAreReserved : Obligations.OtherWordsAreReserved := by
  intro w data
  change _ ↔ w ∉ legalWords
  rw [mem_legalWords_iff]
  constructor
  · rintro hd ⟨i, rfl⟩
    exact decode_encodedWord_ne_reserved i data _ hd
  · intro hw
    cases hd : decode ⟨w, data⟩ with
    | ok i => exact absurd ⟨i, (decode_ok_word hd).symm⟩ hw
    | error r =>
      obtain rfl | ⟨-, hw10⟩ := decode_error_cases hd
      · rfl
      · exact absurd ⟨.acqDone data, hw10.symm⟩ hw

/-- Settles O41: the payload's length is looked at before the state (log 20). -/
theorem acqDoneNeedsSixteenSamples : Obligations.AcqDoneNeedsSixteenSamples := fun _ _ hl =>
  if_neg hl

end Sys2Proof.Proofs
end

section
/-! PROOFS. The Double-Buffer Exchange (40_double_buffer.md): what each of its events answers in `RUN` (R121 to R127), and what two
completions with no service between them do to the next service (R128). The rules of a stream's part, one per event, serve every
statement about a trace of the events of one stream. -/

namespace Sys2Proof.Machine

/-! ### The bits of an Exchange as the rules write them -/

/-- R121, R125 step 2: a completion sets the drop flag where the one before waits or is in service. -/
theorem Exchange.dropAfterDone_eq_ite (x : Exchange) :
    x.dropAfterDone = if x.pend = true ∨ x.busy = true then true else x.drop := by
  cases hp : x.pend <;> cases hb : x.busy <;> simp [Exchange.dropAfterDone, Exchange.missed, hp, hb]

/-- R121, R124, R125, R127: a handover sets the torn flag where a service is in progress. -/
theorem Exchange.tornAfterHandover_eq_ite (x : Exchange) :
    x.tornAfterHandover = if x.busy = true then true else x.torn := by
  cases hb : x.busy <;> simp [Exchange.tornAfterHandover, hb]

/-- `s.DONE` as R121 and R125 write it. -/
theorem Exchange.complete_eq (x : Exchange) :
    x.complete = { x with
      drop := if x.pend = true ∨ x.busy = true then true else x.drop
      torn := if x.busy = true then true else x.torn
      ct := ~~~x.ct
      pend := true } := by
  rw [← x.dropAfterDone_eq_ite, ← x.tornAfterHandover_eq_ite]
  rfl

/-- `s.ERR` as R124 and R127 write it. -/
theorem Exchange.rearm_eq (x : Exchange) :
    x.rearm = { x with
      drop := true
      pend := false
      ct := 0
      torn := if x.busy = true then true else x.torn } := by
  rw [← x.tornAfterHandover_eq_ite]
  rfl

theorem Exchange.canBegin_iff (x : Exchange) : x.canBegin = true ↔ x.pend = true ∧ x.busy = false := by
  simp [Exchange.canBegin]

/-! ### What each event answers -/

/-- An engine event is refused wherever it is not both in `RUN` and enabled (R215). -/
theorem State.engine_refused_of_not {s : State} {m : String} {e : Bool} (h : ¬(s.runst = .run ∧ e = true))
    (effect : State → Host.Outcome State Fault Refusal) : s.engine m e effect = .refused (.notEnabled m) := by
  refine State.engine_refused ?_ effect
  cases hr : s.runst with
  | halt => exact .inl rfl
  | run => exact .inr (Bool.eq_false_iff.mpr fun he => h ⟨hr, he⟩)

section
variable {s : State}

theorem exec_acqDone_run {data : List Sample} (hr : s.runst = .run) (hl : data.length = nAcq) :
    exec (.acqDone data) s = .next (acqDoneEffect data s) :=
  (if_pos hl).trans (State.external_run hr (acqDoneEffect data))

theorem exec_acqErr_run (hr : s.runst = .run) : exec .acqErr s = .next (acqErrEffect s) :=
  State.external_run hr acqErrEffect

theorem exec_genDone_run (hr : s.runst = .run) : exec .genDone s = .next (genDoneEffect s) :=
  State.external_run hr genDoneEffect

theorem exec_genErr_run (hr : s.runst = .run) : exec .genErr s = .next (genErrEffect s) :=
  State.external_run hr genErrEffect

theorem exec_acqBegin_enabled (hr : s.runst = .run) (hp : s.acq.pend = true) (hb : s.acq.busy = false) :
    exec .acqBegin s = .next (acqBeginEffect s) :=
  State.engine_enabled hr (s.acq.canBegin_iff.mpr ⟨hp, hb⟩) fun s => .next (acqBeginEffect s)

theorem exec_genBegin_enabled (hr : s.runst = .run) (hp : s.gen.pend = true) (hb : s.gen.busy = false) :
    exec .genBegin s = .next (genBeginEffect s) :=
  State.engine_enabled hr (s.gen.canBegin_iff.mpr ⟨hp, hb⟩) fun s => .next (genBeginEffect s)

theorem exec_acqBegin_refused (h : ¬(s.runst = .run ∧ s.acq.pend = true ∧ s.acq.busy = false)) :
    exec .acqBegin s = .refused (.notEnabled "ACQ.BEGIN") :=
  State.engine_refused_of_not (by rwa [s.acq.canBegin_iff]) fun s => .next (acqBeginEffect s)

theorem exec_genBegin_refused (h : ¬(s.runst = .run ∧ s.gen.pend = true ∧ s.gen.busy = false)) :
    exec .genBegin s = .refused (.notEnabled "GEN.BEGIN") :=
  State.engine_refused_of_not (by rwa [s.gen.canBegin_iff]) fun s => .next (genBeginEffect s)

end

/-- An element that has been written since reset is emitted with its value (R64, R125 step 1). -/
theorem getElem?_emission {s : State} {i : Nat} (hi : i < nGen) {v : GenSample}
    (hv : Memory.read? s.genBuf (genBase s.gen.ct + i) = some v) : (emission s)[i]? = some v := by
  rw [emission, Memory.getElem?_read _ _ _ _ _ _ hi, hv]
  rfl

/-! ### One stream along a trace of its own events

Each rule `reaches_…` takes the first event of a trace: what the rest of the trace reaches from every state with the stream's
part that the event leaves, the whole trace reaches. -/

/-- `s` runs, with the Exchange `x`, the memory `m` and the parameters `c`: all that the events of the acquisition stream need to
be followed along its Exchange and its buffers. -/
structure AcqPart (x : Exchange) (m : Cells 16) (c : Config) (s : State) : Prop where
  running : s.runst = .run
  acq_eq : s.acq = x
  acqBuf_eq : s.acqBuf = m
  config_eq : s.config = c

/-- `s` runs, with the Exchange `x`, the magnitude `mag` for the next service and the modulator `r`. -/
structure GenPart (x : Exchange) (mag : Magnitude) (r : Modulator) (s : State) : Prop where
  running : s.runst = .run
  gen_eq : s.gen = x
  magnitude_eq : s.config.table s.tidx = mag
  modu_eq : s.modu = r

/-- The trace `tr` runs from `s` to a state that meets `P`. -/
def Reaches (P : State → Prop) (tr : List Instr) (s : State) : Prop :=
  ∃ t, runEvents tr s = .next t ∧ P t

theorem Reaches.nil {P : State → Prop} {s : State} (h : P s) : Reaches P [] s :=
  ⟨s, rfl, h⟩

theorem Reaches.cons {P : State → Prop} {i : Instr} {rest : List Instr} {s t : State} (h : exec i s = .next t)
    (ht : Reaches P rest t) : Reaches P (i :: rest) s := by
  rwa [Reaches, runEvents_cons h]

section
variable {P : State → Prop} {rest : List Instr} {x : Exchange} {m : Cells 16} {c : Config} {s : State}

theorem AcqPart.reaches_done {data : List Sample} (h : AcqPart x m c s) (hl : data.length = nAcq)
    (next : ∀ t, AcqPart x.complete (Memory.write m (acqBase x.ct) data) c t → Reaches P rest t) :
    Reaches P (.acqDone data :: rest) s := by
  obtain ⟨hr, rfl, rfl, rfl⟩ := h
  exact .cons (exec_acqDone_run hr hl) (next _ ⟨hr, rfl, rfl, rfl⟩)

theorem AcqPart.reaches_begin (h : AcqPart x m c s) (hp : x.pend = true) (hb : x.busy = false)
    (next : ∀ t, AcqPart x.accept m c t → Reaches P rest t) : Reaches P (.acqBegin :: rest) s := by
  obtain ⟨hr, rfl, rfl, rfl⟩ := h
  exact .cons (exec_acqBegin_enabled hr hp hb) (next _ ⟨hr, rfl, rfl, rfl⟩)

theorem AcqPart.reaches_end (h : AcqPart x m c s) (hb : x.busy = true) (hc : c.BanksInContract)
    (next : ∀ t, AcqPart x.finish m c t → Reaches P rest t) : Reaches P (.acqEnd :: rest) s := by
  obtain ⟨hr, rfl, rfl, rfl⟩ := h
  have hend := acqEndEffect_ok (runFilter_under_contract (f := s.lmf) s.iirs (length_serviceSamples s) hc)
  exact .cons ((exec_acqEnd_enabled hr hb).trans hend) (next _ ⟨hr, rfl, rfl, rfl⟩)

end

section
variable {P : State → Prop} {rest : List Instr} {x : Exchange} {mag : Magnitude} {r : Modulator} {s : State}

theorem GenPart.reaches_done (h : GenPart x mag r s) (next : ∀ t, GenPart x.complete mag r t → Reaches P rest t) :
    Reaches P (.genDone :: rest) s := by
  obtain ⟨hr, rfl, hmag, rfl⟩ := h
  exact .cons (exec_genDone_run hr) (next _ ⟨hr, rfl, hmag, rfl⟩)

theorem GenPart.reaches_begin (h : GenPart x mag r s) (hp : x.pend = true) (hb : x.busy = false)
    (next : ∀ t, GenPart x.accept mag r t → Reaches P rest t) : Reaches P (.genBegin :: rest) s := by
  obtain ⟨hr, rfl, hmag, rfl⟩ := h
  exact .cons (exec_genBegin_enabled hr hp hb) (next _ ⟨hr, rfl, hmag, rfl⟩)

theorem GenPart.reaches_end (h : GenPart x mag r s) (hb : x.busy = true) (hmag : MagnitudeInContract mag) (hm : r.Inv)
    (next : ∀ mag' r' t, GenPart x.finish mag' r' t → Reaches P rest t) : Reaches P (.genEnd :: rest) s := by
  obtain ⟨hr, rfl, rfl, rfl⟩ := h
  obtain ⟨m, v, hrun⟩ := modRun_under_contract hmag nGen hm
  exact .cons ((State.engine_enabled hr hb genEndEffect).trans (genEndEffect_ok hrun)) (next _ _ _ ⟨hr, rfl, rfl, rfl⟩)

end

/-! ### Two completions with no service between them -/

/-- `y` is what two completions with no `s.BEGIN` between them leave of the Exchange `x`. No service is in progress any more: the
service before was over, or its `s.END` stands before, between or after the completions (R128 (a)). -/
def Exchange.CompletedTwice (x y : Exchange) : Prop :=
  (x.busy = false ∧ y = x.complete.complete) ∨ y = x.finish.complete.complete ∨ y = x.complete.finish.complete ∨
    y = x.complete.complete.finish

section
variable {x y : Exchange} (h : Exchange.CompletedTwice x y)
include h

theorem Exchange.CompletedTwice.pend : y.pend = true := by
  obtain ⟨-, rfl⟩ | rfl | rfl | rfl := h <;> rfl

theorem Exchange.CompletedTwice.not_busy : y.busy = false := by
  obtain ⟨hb, rfl⟩ | rfl | rfl | rfl := h
  · exact hb
  all_goals rfl

/-- The ownership has flipped twice. -/
theorem Exchange.CompletedTwice.ct_eq : y.ct = x.ct := by
  obtain ⟨-, rfl⟩ | rfl | rfl | rfl := h <;> exact BitVec.not_not

/-- The second completion finds the first one pending: `s.END` does not clear it. -/
theorem Exchange.CompletedTwice.drop : y.drop = true := by
  obtain ⟨-, rfl⟩ | rfl | rfl | rfl := h <;> simp

end

/-- R128 (a): the next service reports the index that the service before reported. -/
theorem Exchange.CompletedTwice.accept_cur {x y : Exchange} (h : Exchange.CompletedTwice x y) (hcur : x.cur = ~~~x.ct) :
    y.accept.cur = x.cur := by
  rw [Exchange.accept_cur, h.ct_eq, hcur]

/-- What R128 says of the service that has begun in `t`: it reports the index that the service of `x` reported, on buffers owned
as before, with a drop, and its buffer holds `data`. -/
def AcqReportsAgain (x : Exchange) (data : List Sample) (t : State) : Prop :=
  t.acq.cur = x.cur ∧ t.acq.ct = x.ct ∧ t.acq.drop = true ∧
    ∀ i < 16, Memory.read? t.acqBuf (acqBase t.acq.cur + i) = data[i]?

/-- What R128 says of the generation service that has begun in `t`. -/
def GenReportsAgain (x : Exchange) (t : State) : Prop :=
  t.gen.cur = x.cur ∧ t.gen.ct = x.ct ∧ t.gen.drop = true

/-- R128 (a), (b): after two completions, the second of which wrote the buffer that the first gave to the adapter, the next
service reports that buffer. -/
theorem AcqPart.reaches_reportsAgain {x y : Exchange} {m : Cells 16} {data : List Sample} {c : Config} {s : State}
    (h : AcqPart y (Memory.write m (acqBase (~~~x.ct)) data) c s) (hy : Exchange.CompletedTwice x y) (hcur : x.cur = ~~~x.ct)
    (hl : data.length = 16) : Reaches (AcqReportsAgain x data) [.acqBegin] s := by
  refine h.reaches_begin hy.pend hy.not_busy fun t ht => .nil ?_
  obtain ⟨-, hacq, hbuf, -⟩ := ht
  rw [AcqReportsAgain, hacq, hbuf, hy.accept_cur hcur, hcur]
  exact ⟨rfl, hy.ct_eq, hy.drop, fun i hi => Memory.read?_write_inside m _ data i (hl.symm ▸ hi)⟩

/-- R128 (a): after two completions of the generation stream. -/
theorem GenPart.reaches_reportsAgain {x y : Exchange} {mag : Magnitude} {r : Modulator} {s : State} (h : GenPart y mag r s)
    (hy : Exchange.CompletedTwice x y) (hcur : x.cur = ~~~x.ct) : Reaches (GenReportsAgain x) [.genBegin] s := by
  refine h.reaches_begin hy.pend hy.not_busy fun t ht => .nil ?_
  rw [GenReportsAgain, ht.gen_eq]
  exact ⟨hy.accept_cur hcur, hy.ct_eq, hy.drop⟩

/-- R128 for the acquisition stream, where the service before is over. -/
theorem acqCompletions_reportAgain {s : State} {d1 d2 : List Sample} (hr : s.runst = .run) (hcur : s.acq.cur = ~~~s.acq.ct)
    (hl1 : d1.length = 16) (hl2 : d2.length = 16) (hb : s.acq.busy = false) :
    Reaches (AcqReportsAgain s.acq d2) [.acqDone d1, .acqDone d2, .acqBegin] s :=
  AcqPart.reaches_done ⟨hr, rfl, rfl, rfl⟩ hl1 fun _ h => h.reaches_done hl2 fun _ h =>
    h.reaches_reportsAgain (.inl ⟨hb, rfl⟩) hcur hl2

/-- R128 for the acquisition stream, wherever the service before ends. -/
theorem acqCompletions_reportAgain_of_busy {s : State} {d1 d2 : List Sample} {tr : List Instr} (hr : s.runst = .run)
    (hcur : s.acq.cur = ~~~s.acq.ct) (hl1 : d1.length = 16) (hl2 : d2.length = 16) (hb : s.acq.busy = true)
    (hc : s.config.BanksInContract)
    (htr : tr ∈ [[.acqEnd, .acqDone d1, .acqDone d2, .acqBegin], [.acqDone d1, .acqEnd, .acqDone d2, .acqBegin],
      [.acqDone d1, .acqDone d2, .acqEnd, .acqBegin]]) : Reaches (AcqReportsAgain s.acq d2) tr s := by
  have start : AcqPart s.acq s.acqBuf s.config s := ⟨hr, rfl, rfl, rfl⟩
  simp only [List.mem_cons, List.not_mem_nil, or_false] at htr
  obtain rfl | rfl | rfl := htr
  · exact start.reaches_end hb hc fun _ h => h.reaches_done hl1 fun _ h => h.reaches_done hl2 fun _ h =>
      h.reaches_reportsAgain (x := s.acq) (.inr (.inl rfl)) hcur hl2
  · exact start.reaches_done hl1 fun _ h => h.reaches_end hb hc fun _ h => h.reaches_done hl2 fun _ h =>
      h.reaches_reportsAgain (x := s.acq) (.inr (.inr (.inl rfl))) hcur hl2
  · exact start.reaches_done hl1 fun _ h => h.reaches_done hl2 fun _ h => h.reaches_end hb hc fun _ h =>
      h.reaches_reportsAgain (x := s.acq) (.inr (.inr (.inr rfl))) hcur hl2

/-- R128 for the generation stream, where the service before is over. -/
theorem genCompletions_reportAgain {s : State} (hr : s.runst = .run) (hcur : s.gen.cur = ~~~s.gen.ct)
    (hb : s.gen.busy = false) : Reaches (GenReportsAgain s.gen) [.genDone, .genDone, .genBegin] s :=
  GenPart.reaches_done ⟨hr, rfl, rfl, rfl⟩ fun _ h => h.reaches_done fun _ h =>
    h.reaches_reportsAgain (.inl ⟨hb, rfl⟩) hcur

/-- R128 for the generation stream, wherever the service before ends. -/
theorem genCompletions_reportAgain_of_busy {s : State} {tr : List Instr} (hr : s.runst = .run)
    (hcur : s.gen.cur = ~~~s.gen.ct) (hb : s.gen.busy = true) (hmag : MagnitudeInContract (s.config.table s.tidx))
    (hm : s.modu.Inv)
    (htr : tr ∈ [[.genEnd, .genDone, .genDone, .genBegin], [.genDone, .genEnd, .genDone, .genBegin],
      [.genDone, .genDone, .genEnd, .genBegin]]) : Reaches (GenReportsAgain s.gen) tr s := by
  have start : GenPart s.gen (s.config.table s.tidx) s.modu s := ⟨hr, rfl, rfl, rfl⟩
  simp only [List.mem_cons, List.not_mem_nil, or_false] at htr
  obtain rfl | rfl | rfl := htr
  · exact start.reaches_end hb hmag hm fun _ _ _ h => h.reaches_done fun _ h => h.reaches_done fun _ h =>
      h.reaches_reportsAgain (.inr (.inl rfl)) hcur
  · exact start.reaches_done fun _ h => h.reaches_end hb hmag hm fun _ _ _ h => h.reaches_done fun _ h =>
      h.reaches_reportsAgain (.inr (.inr (.inl rfl))) hcur
  · exact start.reaches_done fun _ h => h.reaches_done fun _ h => h.reaches_end hb hmag hm fun _ _ _ h =>
      h.reaches_reportsAgain (.inr (.inr (.inr rfl))) hcur

end Sys2Proof.Machine

namespace Sys2Proof.Proofs
open Sys2Proof Sys2Proof.Machine

/-! ### The obligations -/

/-- Settles O6: the samples are the ones written, and a write leaves every other element. -/
theorem acqDoneStoresAndFlips : Obligations.AcqDoneStoresAndFlips := by
  intro s data hr hl
  refine ⟨Memory.write s.acqBuf (acqBase s.acq.ct) data, ?_, fun i hi => ?_, fun a ha => ?_⟩
  · rw [exec_acqDone_run hr hl, ← s.acq.complete_eq]
    rfl
  · exact Memory.read?_write_inside s.acqBuf _ data i (hl.symm ▸ hi)
  · exact Memory.read?_write_outside s.acqBuf _ data a (hl.symm ▸ ha)

/-- Settles O9: the emission is a read of the whole buffer, and a read gives each written element its value. -/
theorem genDoneEmitsAndFlips : Obligations.GenDoneEmitsAndFlips := by
  intro s hr
  refine ⟨emission s, s.freeGen + nGen, ?_, Memory.length_read .., fun i hi v hv => getElem?_emission hi hv⟩
  rw [exec_genDone_run hr, ← s.gen.complete_eq]
  rfl

/-- Settles O12: along each trace the Exchange sees two completions, and for `ACQ` the second one writes the buffer that the
service before reported. -/
theorem twoCompletionsReportTheSameBuffer : Obligations.TwoCompletionsReportTheSameBuffer := by
  constructor
  · intro s d1 d2 tr hr hcur hl1 hl2 htr
    obtain ⟨hb, rfl⟩ | ⟨hb, hc, hmem⟩ := htr
    · exact acqCompletions_reportAgain hr hcur hl1 hl2 hb
    · exact acqCompletions_reportAgain_of_busy hr hcur hl1 hl2 hb hc hmem
  · intro s tr hr hcur htr
    obtain ⟨hb, rfl⟩ | ⟨hb, hmag, hm, hmem⟩ := htr
    · exact genCompletions_reportAgain hr hcur hb
    · exact genCompletions_reportAgain_of_busy hr hcur hb hmag hm hmem

/-- Settles O7, by the answer of the engine's gate where `ACQ.BEGIN` is enabled and where it is not. -/
theorem acqBeginStartsTheService : Obligations.AcqBeginStartsTheService := fun _ =>
  ⟨exec_acqBegin_enabled, exec_acqBegin_refused⟩

/-- Settles O8: the transfer fault is the move `rearm` of the Exchange, and nothing else. -/
theorem acqErrRearms : Obligations.AcqErrRearms := by
  intro s hr
  rw [exec_acqErr_run hr, ← s.acq.rearm_eq]
  rfl

/-- Settles O10, by the answer of the engine's gate where `GEN.BEGIN` is enabled and where it is not. -/
theorem genBeginStartsTheService : Obligations.GenBeginStartsTheService := fun _ =>
  ⟨exec_genBegin_enabled, exec_genBegin_refused⟩

/-- Settles O11: the transfer fault is the move `rearm` of the Exchange, and nothing else. -/
theorem genErrRearms : Obligations.GenErrRearms := by
  intro s hr
  rw [exec_genErr_run hr, ← s.gen.rearm_eq]
  rfl

end Sys2Proof.Proofs
end

section
/-! PROOFS. The Fixed-Point Filter Engine (41_filter_engine.md): when `smacc` answers (R141, R143), the recurrence of a section
(R150, R151), what `ACQ.END` answers with any banks (R156), and the commuting of `TICK` with the streams (R158, R218). The rules
that say which fault a micro-operation raises serve every statement about a filter run that does not complete. -/

namespace Sys2Proof.Machine

/-! ### The multiply-accumulate -/

theorem inAccumulator_iff (v : Int) : inAccumulator v = true ↔ -2 ^ 31 ≤ v ∧ v ≤ 2 ^ 31 - 1 := by
  simp [inAccumulator]

@[simp] theorem partialDot_zero (x a : List Sample) : partialDot x a 0 = 0 := rfl

theorem partialDot_cons_succ (x0 a0 : Sample) (x a : List Sample) (k : Nat) :
    partialDot (x0 :: x) (a0 :: a) (k + 1) = x0.toInt * a0.toInt + partialDot x a k := rfl

/-- R141, R143: an accumulation answers exactly where what it starts from and every partial sum are in range. -/
theorem accumulate_answers_iff {acc : Int} {x a : List Sample} (hl : x.length = a.length) :
    (∃ sum, accumulate acc x a = .ok sum) ↔ ∀ k < x.length + 1, inAccumulator (acc + partialDot x a k) = true := by
  induction x generalizing acc a with
  | nil =>
    obtain rfl : a = [] := List.length_eq_zero_iff.mp hl.symm
    rw [accumulate_nil]
    cases hacc : inAccumulator acc <;> simp [hacc]
  | cons x0 xs ih =>
    cases a with
    | nil => cases hl
    | cons a0 as =>
      rw [accumulate_cons, List.length_cons, Nat.forall_lt_succ_left]
      simp only [partialDot_zero, Int.add_zero, partialDot_cons_succ, ← Int.add_assoc, ← ih (Nat.succ.inj hl)]
      cases hacc : inAccumulator acc <;> simp

/-- `smacc` answers exactly where its accumulation does: the shift and the narrowing raise nothing (R141). -/
theorem smacc_answers_iff {y0 : Sample} {x a : List Sample} {s : ShiftField} (hl : x.length = a.length) :
    (∃ r, smacc y0 x a s = .ok r) ↔
      ∀ k < x.length + 1, inAccumulator (y0.toInt * 2 ^ s.toNat + partialDot x a k) = true := by
  rw [← accumulate_answers_iff hl, smacc, lsl]
  cases accumulate (y0.toInt * 2 ^ s.toNat) x a <;> simp [Except.map]

/-! ### Which fault a filter run raises -/

/-- An evaluation whose only fault is `AccRange` (R143). -/
def RaisesOnlyAccRange {α : Type} (e : Except Fault α) : Prop :=
  ∀ f, e = .error f → f = .accRange

theorem RaisesOnlyAccRange.pure {α : Type} (v : α) : RaisesOnlyAccRange (pure v) := nofun

theorem RaisesOnlyAccRange.map {α β : Type} {e : Except Fault α} (h : RaisesOnlyAccRange e) (g : α → β) :
    RaisesOnlyAccRange (e.map g) := by
  cases e with
  | error r => exact fun f hf => h f (by simpa [Except.map] using hf)
  | ok v => exact nofun

theorem RaisesOnlyAccRange.bind {α β : Type} {e : Except Fault α} (h : RaisesOnlyAccRange e) {g : α → Except Fault β}
    (hg : ∀ v, RaisesOnlyAccRange (g v)) : RaisesOnlyAccRange (e >>= g) := by
  cases e with
  | error r => exact fun f hf => h f (by simpa [Bind.bind, Except.bind] using hf)
  | ok v => exact hg v

theorem smacc_raises {y0 : Sample} {x a : List Sample} {s : ShiftField} : RaisesOnlyAccRange (smacc y0 x a s) :=
  .map (fun _ => accumulate_error) _

section
variable {c : Config} {x : List Sample} {f : Fin nbFir} {i : Fin nbIir}

theorem firApply_raises {ch : Channel} : RaisesOnlyAccRange (firApply c x f ch) :=
  smacc_raises

theorem iirUpdate_raises {h : History} {x0 : Sample} : RaisesOnlyAccRange (iirUpdate c h x0 i) :=
  .map smacc_raises _

theorem runCascade_raises {ch : Channel} {k : Cascade} : RaisesOnlyAccRange (runCascade c x f i ch k) :=
  .bind firApply_raises fun _ => .bind iirUpdate_raises fun _ => .bind iirUpdate_raises fun _ => .pure _

/-- R143, R156: a filter run raises nothing but `AccRange`. -/
theorem runFilter_raises {file : IirFile} : RaisesOnlyAccRange (runFilter c x f i file) :=
  .bind runCascade_raises fun _ => .bind runCascade_raises fun _ => .pure _

end

/-! ### The recurrence of a section -/

/-- What `iir_update` leaves and answers is the formula, where it answers (R150). -/
theorem iirWith_ok_formula {r : IirRecord} {h : History} {x0 : Sample} {p : History × Sample} (e : iirWith r h x0 = .ok p) :
    p = sectionFormula r h x0 := by
  obtain ⟨h', y⟩ := p
  obtain ⟨hmacc, rfl⟩ := iirWith_ok e
  obtain rfl := smacc_ok (x := (h.insert x0).slots) (a := r.coefficients) rfl hmacc
  rfl

section
variable {r : IirRecord} {h : History} {x0 : Sample}

/-- `iirWith_ok` backwards: what `smacc` answers goes into the middle slot (R150). -/
theorem iirWith_of_smacc_ok {y0 : Sample} (hmacc : smacc 0 (h.insert x0).slots r.coefficients r.shift = .ok y0) :
    iirWith r h x0 = .ok (⟨x0, h.h0, y0, h.h2, h.h3⟩, y0) := by
  rw [iirWith, hmacc]
  rfl

/-- A section's update raises what its `smacc` raises (R143, R150). -/
theorem iirWith_of_smacc_error {f : Fault} (hmacc : smacc 0 (h.insert x0).slots r.coefficients r.shift = .error f) :
    iirWith r h x0 = .error f := by
  rw [iirWith, hmacc]
  rfl

end

/-- The formula of a section's output, written out (R151). -/
theorem sectionFormula_toInt (r : IirRecord) (h : History) (x0 : Sample) :
    (sectionFormula r h x0).2.toInt = clamp ((r.c0.toInt * x0.toInt + r.c1.toInt * h.h0.toInt + r.c2.toInt * h.h1.toInt +
      r.c3.toInt * h.h2.toInt + r.c4.toInt * h.h3.toInt) / 2 ^ r.shift.toNat) (-32768) 32767 := by
  have hsum : lsl (0 : Sample).toInt r.shift.toNat + dot [x0, h.h0, h.h1, h.h2, h.h3] r.coefficients =
      r.c0.toInt * x0.toInt + r.c1.toInt * h.h0.toInt + r.c2.toInt * h.h1.toInt + r.c3.toInt * h.h2.toInt +
        r.c4.toInt * h.h3.toInt := by
    simp only [lsl, dot, IirRecord.coefficients, List.zip_cons_cons, List.zip_nil_right, List.map_cons, List.map_nil,
      List.sum_cons, List.sum_nil, BitVec.ofNat_eq_ofNat, BitVec.toInt_zero]
    ring
  rw [← hsum]
  exact narrow_toInt _

theorem before_succ_succ (xs : List Sample) (n k : Nat) : before xs (n + 1) (k + 1) = before xs n k := by
  simp [before]

/-- What comes later in a sequence does not change what stands before an element. -/
theorem before_append {xs : List Sample} {n k : Nat} (h : n < xs.length + k) (zs : List Sample) :
    before (xs ++ zs) n k = before xs n k := by
  unfold before
  split
  · exact List.getD_append _ _ _ _ (by omega)
  · rfl

theorem before_snoc (xs : List Sample) (x : Sample) : before (xs ++ [x]) xs.length 0 = x := by
  simp [before]

/-- The history in which a section takes element `n` of its inputs `xs`, having answered `ys` (R151): the last two inputs and
the last three outputs. -/
def historyBefore (xs ys : List Sample) (n : Nat) : History :=
  ⟨before xs n 1, before xs n 2, before ys n 1, before ys n 2, before ys n 3⟩

theorem historyBefore_succ (xs ys : List Sample) (n : Nat) :
    historyBefore xs ys (n + 1) = ⟨before xs n 0, before xs n 1, before ys n 0, before ys n 1, before ys n 2⟩ := by
  simp only [historyBefore, before_succ_succ]

theorem historyBefore_append {xs ys : List Sample} {n : Nat} (hx : n ≤ xs.length) (hy : n ≤ ys.length) (zs ws : List Sample) :
    historyBefore (xs ++ zs) (ys ++ ws) n = historyBefore xs ys n := by
  unfold historyBefore
  congr 1 <;> exact before_append (by omega) _

/-- The outputs `ys` of a section with the inputs `xs` follow the recurrence of R151 from the zero history. -/
def FollowsRecurrence (r : IirRecord) (xs ys : List Sample) : Prop :=
  ys.length = xs.length ∧ ∀ n < xs.length, before ys n 0 = (sectionFormula r (historyBefore xs ys n) (before xs n 0)).2

section
variable {r : IirRecord} {xs ys : List Sample}

/-- One more input, with the output that the formula gives it. -/
theorem FollowsRecurrence.snoc (h : FollowsRecurrence r xs ys) (x : Sample) :
    FollowsRecurrence r (xs ++ [x]) (ys ++ [(sectionFormula r (historyBefore xs ys xs.length) x).2]) := by
  obtain ⟨hlen, hrec⟩ := h
  refine ⟨by simp [hlen], fun n hn => ?_⟩
  rw [List.length_append, List.length_singleton] at hn
  rw [historyBefore_append (by omega) (by omega)]
  obtain hn | rfl : n < xs.length ∨ n = xs.length := by omega
  · rw [before_append (by omega), before_append (by omega)]
    exact hrec n hn
  · rw [before_snoc, ← hlen, before_snoc]

/-- The update leaves the history in which the next input is taken. -/
theorem sectionFormula_history (hlen : ys.length = xs.length) (x : Sample) :
    (sectionFormula r (historyBefore xs ys xs.length) x).1 =
      historyBefore (xs ++ [x]) (ys ++ [(sectionFormula r (historyBefore xs ys xs.length) x).2]) (xs ++ [x]).length := by
  rw [List.length_append, List.length_singleton, historyBefore_succ, before_snoc, ← hlen, before_snoc,
    before_append (by omega), before_append (by omega), before_append (by omega)]
  rfl

end

/-- The updates for a first input and for the rest, inverted. -/
theorem iirRun_cons_ok {r : IirRecord} {h h' : History} {x : Sample} {xs ys : List Sample}
    (e : iirRun r h (x :: xs) = .ok (h', ys)) :
    ∃ h1 y zs, iirWith r h x = .ok (h1, y) ∧ iirRun r h1 xs = .ok (h', zs) ∧ ys = y :: zs := by
  unfold iirRun at e
  split at e
  · cases e
  · rename_i h1 y hfirst
    split at e
    · cases e
    · rename_i h2 zs hrest
      cases e
      exact ⟨h1, y, zs, hfirst, hrest, rfl⟩

/-- R151: a section that has followed the recurrence goes on following it, and its history holds what the next input needs. -/
theorem FollowsRecurrence.extend {r : IirRecord} {xs ys zs ws : List Sample} {h : History} (hxy : FollowsRecurrence r xs ys)
    (e : iirRun r (historyBefore xs ys xs.length) zs = .ok (h, ws)) :
    FollowsRecurrence r (xs ++ zs) (ys ++ ws) ∧ h = historyBefore (xs ++ zs) (ys ++ ws) (xs ++ zs).length := by
  induction zs generalizing xs ys ws with
  | nil =>
    cases e
    simpa using hxy
  | cons z zs ih =>
    obtain ⟨h1, y, ws', hfirst, hrest, rfl⟩ := iirRun_cons_ok e
    have hp := iirWith_ok_formula hfirst
    obtain rfl : h1 = (sectionFormula r (historyBefore xs ys xs.length) z).1 := congrArg Prod.fst hp
    obtain rfl : y = (sectionFormula r (historyBefore xs ys xs.length) z).2 := congrArg Prod.snd hp
    rw [sectionFormula_history hxy.1] at hrest
    simpa using ih (hxy.snoc z) hrest

/-! ### The filter run with any banks -/

section
variable {c : Config} {x : List Sample} {f : Fin nbFir} {i : Fin nbIir} {ch : Channel}

/-- `runCascade_ok` in both directions: a channel's cascade answers where the micro-operations do, what they answer (R155). -/
theorem runCascade_eq_ok_iff {k k' : Cascade} {y : Sample} :
    runCascade c x f i ch k = .ok (k', y) ↔ CascadeRuns c x f i ch k k' y := by
  refine ⟨runCascade_ok, fun ⟨v, g, hfir, hsec0, hsec1⟩ => ?_⟩
  simp only [runCascade, hfir, hsec0, hsec1, bind, Except.bind]
  rfl

/-- `runFilter_ok` in both directions, on both channels' cascades (R156 step 2). -/
theorem runFilter_eq_ok_iff {file file' : IirFile} {y0 y1 : Sample} :
    runFilter c x f i file = .ok (file', y0, y1) ↔
      CascadeRuns c x f i 0 file.ch0 file'.ch0 y0 ∧ CascadeRuns c x f i 1 file.ch1 file'.ch1 y1 := by
  simp only [← runCascade_eq_ok_iff]
  refine ⟨runFilter_ok, fun ⟨hch0, hch1⟩ => ?_⟩
  simp only [runFilter, hch0, hch1, bind, Except.bind]
  rfl

/-- R143, R156: where a channel's cascade does not run, the filter run raises `AccRange`. -/
theorem runFilter_error_of_not {file : IirFile}
    (h : (¬∃ k y, CascadeRuns c x f i 0 file.ch0 k y) ∨ ¬∃ k y, CascadeRuns c x f i 1 file.ch1 k y) :
    runFilter c x f i file = .error .accRange := by
  cases hrun : runFilter c x f i file with
  | error r => rw [runFilter_raises r hrun]
  | ok p =>
    obtain ⟨hch0, hch1⟩ := runFilter_eq_ok_iff.mp hrun
    exact (h.elim (· ⟨_, _, hch0⟩) (· ⟨_, _, hch1⟩)).elim

end

/-! ### How `ACQ.END` stops -/

/-- `ACQ.END` where it is not enabled (R215). -/
theorem exec_acqEnd_refused {s : State} (h : ¬(s.runst = .run ∧ s.acq.busy = true)) :
    exec .acqEnd s = .refused (.notEnabled "ACQ.END") :=
  State.engine_refused_of_not h acqEndEffect

/-- Where `ACQ.END` is enabled it is not refused: it has a next state, or the fault of its filter run. -/
theorem acqEndEffect_ne_refused (s : State) (r : Refusal) : acqEndEffect s ≠ .refused r := by
  cases hrun : runFilter s.config (serviceSamples s) s.lmf s.lmi s.iirs with
  | error f => rw [acqEndEffect_error hrun]; exact nofun
  | ok p => rw [acqEndEffect_ok hrun]; exact nofun

/-- A fault of `ACQ.END` is the fault of its filter run (R143). -/
theorem acqEndEffect_fault {s : State} {f : Fault} (h : acqEndEffect s = .fault f) :
    runFilter s.config (serviceSamples s) s.lmf s.lmi s.iirs = .error f := by
  cases hrun : runFilter s.config (serviceSamples s) s.lmf s.lmi s.iirs with
  | error g =>
    rw [acqEndEffect_error hrun] at h
    cases h
    rfl
  | ok p =>
    rw [acqEndEffect_ok hrun] at h
    cases h

/-! ### `TICK` and the streams -/

/-- `s` with the part of `u` that `TICK` owns (SE20 to SE22, R34). -/
def State.withDebounceOf (s u : State) : State :=
  s.withDebounce u.t u.firMode u.iirMode

/-- `s` with both streams' parts of `u` (R34). -/
def State.withStreams (s u : State) : State :=
  (s.withAcquisition u).withGeneration u

theorem acqEndEffect_withDebounceOf (s u : State) :
    acqEndEffect (s.withDebounceOf u) = mapNext (·.withDebounceOf u) (acqEndEffect s) := by
  cases h : runFilter s.config (serviceSamples s) s.lmf s.lmi s.iirs with
  | error r => exact (acqEndEffect_error (s := s.withDebounceOf u) h).trans (by rw [acqEndEffect_error h]; rfl)
  | ok p => exact (acqEndEffect_ok (s := s.withDebounceOf u) h).trans (by rw [acqEndEffect_ok h]; rfl)

theorem genEndEffect_withDebounceOf (s u : State) :
    genEndEffect (s.withDebounceOf u) = mapNext (·.withDebounceOf u) (genEndEffect s) := by
  cases h : modRun nGen (s.config.table s.tidx) s.modu with
  | error r => exact (genEndEffect_error (s := s.withDebounceOf u) h).trans (by rw [genEndEffect_error h]; rfl)
  | ok p => exact (genEndEffect_ok (s := s.withDebounceOf u) h).trans (by rw [genEndEffect_ok h]; rfl)

section
variable {i : Instr} (hi : IsAcquisition i ∨ IsGeneration i)
include hi

/-- R158: no stream event but `ACQ.BEGIN` reads the Mode selector, and none reads the debounce counter. -/
theorem exec_withDebounceOf (hbegin : i ≠ .acqBegin) (s u : State) :
    exec i (s.withDebounceOf u) = mapNext (·.withDebounceOf u) (exec i s) := by
  obtain (⟨data, rfl⟩ | rfl | rfl | rfl) | (rfl | rfl | rfl | rfl) := hi
  · simp only [exec, execAcqDone]
    split
    · exact State.external_mapNext (f := (·.withDebounceOf u)) rfl rfl rfl
    · rfl
  · exact absurd rfl hbegin
  · exact State.engine_mapNext (f := (·.withDebounceOf u)) _ _ rfl (acqEndEffect_withDebounceOf s u)
  · exact State.external_mapNext (f := (·.withDebounceOf u)) rfl rfl rfl
  · exact State.external_mapNext (f := (·.withDebounceOf u)) rfl rfl rfl
  · exact State.engine_mapNext (f := (·.withDebounceOf u)) (effect := fun s => .next (genBeginEffect s)) _ _ rfl rfl
  · exact State.engine_mapNext (f := (·.withDebounceOf u)) _ _ rfl (genEndEffect_withDebounceOf s u)
  · exact State.external_mapNext (f := (·.withDebounceOf u)) rfl rfl rfl

/-- A stream event changes the streams' parts and the output record, and nothing else. -/
theorem exec_stream_eq {s t : State} (h : exec i s = .next t) : t = (s.withStreams t).withOutput t.output := by
  obtain ha | hg := hi
  · calc t
      _ = (s.withAcquisition t).withOutput t.output := exec_acquisition_eq ha h
      _ = (s.withStreams ((s.withAcquisition t).withOutput t.output)).withOutput t.output := rfl
      _ = (s.withStreams t).withOutput t.output :=
        congrArg (fun x => (s.withStreams x).withOutput t.output) (exec_acquisition_eq ha h).symm
  · calc t
      _ = (s.withGeneration t).withOutput t.output := exec_generation_eq hg h
      _ = (s.withStreams ((s.withGeneration t).withOutput t.output)).withOutput t.output := rfl
      _ = (s.withStreams t).withOutput t.output :=
        congrArg (fun x => (s.withStreams x).withOutput t.output) (exec_generation_eq hg h).symm

end

/-- `TICK` reads and writes nothing of the two streams. -/
theorem exec_tick_withStreams (level : Bool) (s u : State) :
    exec (.tick level) (s.withStreams u) = mapNext (·.withStreams u) (exec (.tick level) s) :=
  State.external_mapNext (f := (·.withStreams u)) rfl rfl rfl

/-- `TICK` changes its own part and the output record, and nothing else. -/
theorem exec_tick_eq {level : Bool} {s t : State} (h : exec (.tick level) s = .next t) :
    t = (s.withDebounceOf t).withOutput t.output := by
  obtain ⟨-, rfl⟩ | ⟨-, rfl⟩ := exec_cases h <;> rfl

section
variable {i : Instr} {level : Bool} {s sTick si : State}

/-- A stream event but `ACQ.BEGIN` after `TICK` does what it does before it, beside the part of `TICK`. -/
theorem exec_after_tick (hi : IsAcquisition i ∨ IsGeneration i) (hbegin : i ≠ .acqBegin)
    (h : exec (.tick level) s = .next sTick) : exec i sTick = mapNext (·.withDebounceOf sTick) (exec i s) :=
  calc exec i sTick
    _ = exec i ((s.withDebounceOf sTick).withOutput sTick.output) := congrArg (exec i) (exec_tick_eq h)
    _ = exec i (s.withDebounceOf sTick) := exec_withOutput i _ _
    _ = mapNext (·.withDebounceOf sTick) (exec i s) := exec_withDebounceOf hi hbegin s sTick

/-- `TICK` after a stream event does what it does before it, beside the streams' parts. -/
theorem exec_tick_after_stream (hi : IsAcquisition i ∨ IsGeneration i) (h : exec i s = .next si) :
    exec (.tick level) si = mapNext (·.withStreams si) (exec (.tick level) s) :=
  calc exec (.tick level) si
    _ = exec (.tick level) ((s.withStreams si).withOutput si.output) := congrArg (exec (.tick level)) (exec_stream_eq hi h)
    _ = exec (.tick level) (s.withStreams si) := exec_withOutput (.tick level) _ _
    _ = mapNext (·.withStreams si) (exec (.tick level) s) := exec_tick_withStreams level s si

/-- The two orders put the parts together to one state, but for the output record. -/
theorem tick_stream_merge (hi : IsAcquisition i ∨ IsGeneration i) (ht : exec (.tick level) s = .next sTick)
    (h : exec i s = .next si) : (sTick.withStreams si).withOutput .none = (si.withDebounceOf sTick).withOutput .none :=
  calc (sTick.withStreams si).withOutput .none
    _ = (((s.withDebounceOf sTick).withOutput sTick.output).withStreams si).withOutput .none :=
      congrArg (fun x => (x.withStreams si).withOutput .none) (exec_tick_eq ht)
    _ = (((s.withStreams si).withOutput si.output).withDebounceOf sTick).withOutput .none := rfl
    _ = (si.withDebounceOf sTick).withOutput .none :=
      congrArg (fun x => (x.withDebounceOf sTick).withOutput .none) (exec_stream_eq hi h).symm

end

end Sys2Proof.Machine

namespace Sys2Proof.Proofs
open Sys2Proof Sys2Proof.Machine

/-! ### The obligations -/

/-- Settles O14: `smacc` answers exactly where every partial sum is in range, and then it answers the formula. -/
theorem smaccIsTheFormulaOrAccRange : Obligations.SmaccIsTheFormulaOrAccRange := by
  intro y0 x a s hl
  refine ⟨fun hin => ?_, fun ⟨k, hk, hout⟩ => ?_⟩
  · obtain ⟨r, hr⟩ := (smacc_answers_iff hl).mpr fun k hk => (inAccumulator_iff _).mpr (hin k (Nat.le_of_lt_succ hk))
    obtain rfl := smacc_ok hl hr
    exact ⟨_, hr, narrow_toInt _⟩
  · cases hr : smacc y0 x a s with
    | error f => rw [smacc_raises f hr]
    | ok r =>
      have hin := (inAccumulator_iff _).mp ((smacc_answers_iff hl).mp ⟨r, hr⟩ k (Nat.lt_succ_of_le hk))
      omega

/-- Settles O18: the zero history is the one before the first input, and the updates follow the recurrence from there. -/
theorem iirSectionIsTheRecurrence : Obligations.IirSectionIsTheRecurrence := by
  intro r xs ys h hrun
  have hstart : FollowsRecurrence r [] [] := ⟨rfl, nofun⟩
  obtain ⟨⟨hlen, hrec⟩, hhist⟩ := hstart.extend hrun
  refine ⟨hlen, fun n hn => ?_, fun n hn => ?_⟩
  · exact (congrArg BitVec.toInt (hrec n hn)).trans (sectionFormula_toInt r _ _)
  · rw [hhist, List.nil_append, List.nil_append, hn, historyBefore_succ]

/-- Settles O19: the filter run is both channels' cascades on the samples of the service, and raises nothing but `AccRange`. -/
theorem acqEndRunsTheCascades : Obligations.AcqEndRunsTheCascades := by
  intro s hr hb
  refine ⟨serviceSamples s, s.freeAcq + nAcq, length_serviceSamples s, fun ht i hi v => getElem?_serviceSamples ht hi,
    fun k0 k1 y0 y1 hch0 hch1 => ?_, fun hnot => ?_⟩
  · have hrun := runFilter_eq_ok_iff (file' := ⟨k0, k1⟩).mpr ⟨hch0, hch1⟩
    exact (exec_acqEnd_enabled hr hb).trans (acqEndEffect_ok hrun)
  · exact (exec_acqEnd_enabled hr hb).trans (acqEndEffect_error (runFilter_error_of_not hnot))

/-- Settles O21: where `ACQ.END` is enabled it stops only by the fault of its filter run, which the contract of R80
excludes. -/
theorem acqEndStopsOnlyByName : Obligations.AcqEndStopsOnlyByName := by
  refine fun s => ⟨exec_acqEnd_refused, fun r href hen => ?_, fun f hfault => ?_⟩
  · obtain ⟨hr, hb⟩ := hen
    exact acqEndEffect_ne_refused s r ((exec_acqEnd_enabled hr hb).symm.trans href)
  · have hrun := acqEndEffect_fault (State.engine_fault hfault)
    refine ⟨runFilter_raises f hrun, fun hc => ?_⟩
    rw [runFilter_under_contract s.iirs (length_serviceSamples s) hc] at hrun
    cases hrun

/-- Settles O52: in either order the second event does what it does in the first place, and the parts merge. -/
theorem tickCommutesWithStreamEvents : Obligations.TickCommutesWithStreamEvents := by
  intro i level s hi hbegin
  refine ⟨fun sTick t eTick et => ?_, fun si t ei et => ?_⟩
  · rw [exec_after_tick hi hbegin eTick] at et
    obtain ⟨si, ei, rfl⟩ := mapNext_eq_next et
    exact ⟨si, sTick.withStreams si, ei, by rw [exec_tick_after_stream hi ei, eTick]; rfl, tick_stream_merge hi eTick ei⟩
  · rw [exec_tick_after_stream hi ei] at et
    obtain ⟨sTick, eTick, rfl⟩ := mapNext_eq_next et
    exact ⟨sTick, si.withDebounceOf sTick, eTick, by rw [exec_after_tick hi hbegin eTick, ei]; rfl,
      (tick_stream_merge hi eTick ei).symm⟩

/-- Settles O17: `iir_update` is the `smacc` of the shifted history, and what it answers goes into the middle slot. -/
theorem iirUpdateShiftsAndFeedsBack : Obligations.IirUpdateShiftsAndFeedsBack := by
  intro c h x0 m
  exact ⟨fun y0 => iirWith_of_smacc_ok, iirWith_of_smacc_error⟩

end Sys2Proof.Proofs
end

section
/-! PROOFS. The Noise-Shaping Modulator (42_modulator.md): the account of one modulation step and of a run (R174, R175),
its sums on 17 bits (R174), what `GEN.END` answers where its run completes and where it does not (R178, R179), and the period of the
pseudo-random register (R171, R172). -/

namespace Sys2Proof.Machine

/-! ### The account of the outputs -/

/-- A magnitude is its high bits and its low bits (R173). -/
theorem toNat_eq_magHigh_magLow (mag : Magnitude) : mag.toNat = 65536 * (magHigh mag).toNat + (magLow mag).toNat := by
  have := mag.isLt
  simp only [magHigh, magLow, BitVec.extractLsb'_toNat, Nat.shiftRight_eq_div_pow]
  omega

/-- R175, one step: the output carries the magnitude and the dither bit, up to what `ACC[0]` and `DC[1]` take over. -/
theorem modStep_account {mag : Magnitude} {m : Modulator} {y : GenSample} (h : modStep mag m = .ok (modNext mag m, y)) :
    65536 * (y.toNat : Int) + (modNext mag m).acc0.toNat =
      mag.toNat + (prbsBit m.lfsr).toNat + m.acc0.toNat + 65536 * ((modNext mag m).dc1.toInt - m.dc1.toInt) := by
  obtain ⟨-, hy⟩ := modStep_ok h
  have hsum : 65536 * carryBit (stage1Sum mag m) + (modNext mag m).acc0.toNat =
      m.acc0.toNat + (magLow mag).toNat + (prbsBit m.lfsr).toNat := carry_split _ (stage1Sum_lt mag m)
  have hmag := toNat_eq_magHigh_magLow mag
  rw [modNext_dc1, hy, correction]
  omega

/-- How many of the `n` steps from the register `l` on have the dither bit 1 (R171). -/
def ditherOnes (n : Nat) (l : BitVec 16) : Nat :=
  (List.range n).countP fun k => prbsBit (prbsNext^[k] l)

theorem ditherOnes_succ (n : Nat) (l : BitVec 16) : ditherOnes (n + 1) l = (prbsBit l).toNat + ditherOnes n (prbsNext l) := by
  rw [ditherOnes, List.range_succ_eq_map, List.countP_cons, List.countP_map, Nat.add_comm, Function.iterate_zero_apply]
  cases prbsBit l <;> rfl

/-- R175, any run: what `modStep_account` says of one step, summed over the run. -/
theorem modRun_account {n : Nat} {mag : Magnitude} {m m' : Modulator} {ys : List GenSample} (h : modRun n mag m = .ok (m', ys)) :
    65536 * (ys.map fun y => (y.toNat : Int)).sum + m'.acc0.toNat =
      n * mag.toNat + ditherOnes n m.lfsr + m.acc0.toNat + 65536 * (m'.dc1.toInt - m.dc1.toInt) := by
  induction n generalizing m ys with
  | zero =>
    simp only [modRun, Except.ok.injEq, Prod.mk.injEq] at h
    obtain ⟨rfl, rfl⟩ := h
    simp [ditherOnes]
  | succ n ih =>
    obtain ⟨m1, y, ys, hstep, hrest, rfl⟩ := modRun_succ_ok h
    obtain ⟨rfl, -⟩ := modStep_ok hstep
    have hfirst := modStep_account hstep
    have hlater := ih hrest
    have hones : ditherOnes (n + 1) m.lfsr = (prbsBit m.lfsr).toNat + ditherOnes n (modNext mag m).lfsr :=
      ditherOnes_succ n m.lfsr
    rw [List.map_cons, List.sum_cons, hones]
    push_cast
    linarith

/-! ### The sums on 17 bits -/

/-- The two parts of a stage's 17-bit sum: its low 16 bits, which the accumulator takes, and bit 16, the carry (R174). -/
theorem stageSum_parts {s : BitVec 17} {sum : Nat} (h : s.toNat = sum) :
    s.extractLsb' 0 16 = BitVec.ofNat 16 sum ∧ ((s.getLsbD 16).toNat : Int) = carryBit sum := by
  subst h
  exact ⟨rfl, by rw [carryBit, BitVec.getLsbD, Nat.toNat_testBit]⟩

/-- Two 16-bit values and a bit fit in 17 bits. -/
theorem toNat_seventeenBitSum (a b : BitVec 16) (c : Bool) :
    (a.setWidth 17 + b.setWidth 17 + (BitVec.ofBool c).setWidth 17).toNat = a.toNat + b.toNat + c.toNat := by
  have ha := a.isLt
  have hb := b.isLt
  have hc := c.toNat_le
  simp only [BitVec.toNat_add, BitVec.toNat_setWidth, BitVec.toNat_ofBool]
  omega

/-- Two 16-bit values fit in 17 bits. -/
theorem toNat_seventeenBitSum_of_two (a b : BitVec 16) : (a.setWidth 17 + b.setWidth 17).toNat = a.toNat + b.toNat := by
  have ha := a.isLt
  have hb := b.isLt
  simp only [BitVec.toNat_add, BitVec.toNat_setWidth]
  omega

/-- R174 step 9, R176: where the sum of the high bits and the correction leaves 0..255, the step raises `ModRange`. -/
theorem modStep_of_out_of_range {mag : Magnitude} {m : Modulator}
    (h : ((magHigh mag).toNat : Int) + correction mag m < 0 ∨ 255 < ((magHigh mag).toNat : Int) + correction mag m) :
    modStep mag m = .error .modRange :=
  if_pos h

/-- R174 step 9: where the sum is in 0..255, the step answers it. -/
theorem modStep_of_in_range {mag : Magnitude} {m : Modulator} (hlo : 0 ≤ ((magHigh mag).toNat : Int) + correction mag m)
    (hhi : ((magHigh mag).toNat : Int) + correction mag m ≤ 255) :
    ∃ y, modStep mag m = .ok (modNext mag m, y) ∧ (y.toNat : Int) = (magHigh mag).toNat + correction mag m := by
  have hstep : modStep mag m = .ok (modNext mag m, _) := if_neg (by omega)
  exact ⟨_, hstep, (modStep_ok hstep).2⟩

/-- `DC[0]` takes the stage-3 carry itself (R174 step 6). -/
theorem modNext_dc0 (mag : Magnitude) (m : Modulator) : (modNext mag m).dc0.toNat = carryBit (stage3Sum mag m) :=
  Nat.mod_eq_of_lt (Nat.lt_succ_of_le (carryBit_le _))

/-! ### `GEN.END` -/

/-- Where `GEN.END` is enabled it has its effect (R215). -/
theorem exec_genEnd_enabled {s : State} (hr : s.runst = .run) (hb : s.gen.busy = true) : exec .genEnd s = genEndEffect s :=
  State.engine_enabled hr hb genEndEffect

/-- Every element that `GEN.END` writes, where its run completes (R178). -/
theorem exec_genEnd_next {s : State} {m : Modulator} {v : List GenSample} (hr : s.runst = .run) (hb : s.gen.busy = true)
    (hrun : modRun nGen (s.config.table s.tidx) s.modu = .ok (m, v)) :
    exec .genEnd s = .next { s with
      modu := m
      genBuf := serviceWrite s v
      tidx := s.tidx + 1
      gen := { s.gen with busy := false, torn := false }
      freeGen := s.freeGen + nGen
      output := .none } := by
  rw [exec_genEnd_enabled hr hb, genEndEffect_ok hrun, nextBank_tab]
  simp only [State.silent, State.withOutput, State.drawGen, State.withGen, Exchange.finish, State.withTidx, State.withGenBuf,
    State.withModulator]

/-- `GEN.END` where it is not enabled (R215). -/
theorem exec_genEnd_refused {s : State} (h : ¬(s.runst = .run ∧ s.gen.busy = true)) :
    exec .genEnd s = .refused (.notEnabled "GEN.END") :=
  State.engine_refused_of_not h genEndEffect

/-- A torn service leaves in each element of its buffer the new value or the old one (R179). -/
theorem read?_serviceWrite_of_torn {s : State} {v : List GenSample} (ht : s.gen.torn = true) {i : Nat} (hi : i < v.length) :
    Memory.read? (serviceWrite s v) (genBase s.gen.cur + i) = v[i]? ∨
      Memory.read? (serviceWrite s v) (genBase s.gen.cur + i) = Memory.read? s.genBuf (genBase s.gen.cur + i) := by
  rw [serviceWrite, if_pos ht, Memory.read?_tornWrite_inside _ _ _ _ _ _ hi]
  exact ite_eq_or_eq _ _ _

/-- A service writes no element of the other buffer, torn or not (R178 step 3, R179). -/
theorem read?_serviceWrite_outside {s : State} {v : List GenSample} {a : Nat}
    (h : a < genBase s.gen.cur ∨ genBase s.gen.cur + v.length ≤ a) :
    Memory.read? (serviceWrite s v) a = Memory.read? s.genBuf a := by
  unfold serviceWrite
  split
  · exact Memory.read?_tornWrite_outside _ _ _ _ _ _ h
  · exact Memory.read?_write_outside _ _ _ _ h

/-- A modulation run raises what the first of its steps that raises a fault raises (R176, R178 step 2). -/
theorem modRun_error_of_step {n k : Nat} {mag : Magnitude} {r : Nat → Modulator} {f : Fault} (hk : k < n)
    (hsteps : ∀ j < k, ∃ y, modStep mag (r j) = .ok (r (j + 1), y)) (hf : modStep mag (r k) = .error f) :
    modRun n mag (r 0) = .error f := by
  obtain ⟨n, rfl⟩ : ∃ n', n = n' + 1 := ⟨n - 1, by omega⟩
  induction k generalizing n r with
  | zero => simp only [modRun, hf, bind, Except.bind]
  | succ k ih =>
    obtain ⟨y, hfirst⟩ := hsteps 0 k.succ_pos
    obtain ⟨n, rfl⟩ : ∃ n', n = n' + 1 := ⟨n - 1, by omega⟩
    have hrest : modRun (n + 1) mag (r 1) = .error f :=
      ih (r := fun j => r (j + 1)) (fun j hj => hsteps (j + 1) (Nat.succ_lt_succ hj)) hf n (Nat.lt_of_succ_lt_succ hk)
    rw [modRun, hfirst]
    simp only [hrest, bind, Except.bind]

/-! ### Maps that respect exclusive or, and their powers -/

section
variable {w : Nat}

/-- A map of bit vectors that respects exclusive or, as every linear-feedback shift register does. -/
def XorLinear (f : BitVec w → BitVec w) : Prop :=
  ∀ a b, f (a ^^^ b) = f a ^^^ f b

theorem XorLinear.map_zero {f : BitVec w → BitVec w} (hf : XorLinear f) : f 0#w = 0#w := by
  have h := hf 0#w 0#w
  rwa [BitVec.xor_self, BitVec.xor_self] at h

theorem XorLinear.comp {f g : BitVec w → BitVec w} (hf : XorLinear f) (hg : XorLinear g) : XorLinear (f ∘ g) := fun a b =>
  (congrArg f (hg a b)).trans (hf _ _)

/-- The exclusive or of those `c i`, `i` below `n`, for which bit `i` of `v` is set. -/
def bitSum (v : BitVec w) (c : Nat → BitVec w) (n : Nat) : BitVec w :=
  match n with
  | 0 => 0#w
  | n + 1 => (if v.getLsbD n then c n else 0#w) ^^^ bitSum v c n

theorem bitSum_congr (v : BitVec w) {c d : Nat → BitVec w} {n : Nat} (h : ∀ i < n, c i = d i) :
    bitSum v c n = bitSum v d n := by
  induction n with
  | zero => rfl
  | succ n ih => rw [bitSum, bitSum, h n n.lt_succ_self, ih fun i hi => h i (Nat.lt_succ_of_lt hi)]

theorem XorLinear.map_bitSum {f : BitVec w → BitVec w} (hf : XorLinear f) (v : BitVec w) (c : Nat → BitVec w) (n : Nat) :
    f (bitSum v c n) = bitSum v (fun i => f (c i)) n := by
  induction n with
  | zero => exact hf.map_zero
  | succ n ih => rw [bitSum, hf, ih, apply_ite f, hf.map_zero, bitSum]

theorem getLsbD_bitSum_twoPow (v : BitVec w) {n : Nat} (hn : n ≤ w) (j : Nat) :
    (bitSum v (BitVec.twoPow w) n).getLsbD j = (decide (j < n) && v.getLsbD j) := by
  induction n with
  | zero => simp [bitSum]
  | succ n ih =>
    rw [bitSum, BitVec.getLsbD_xor, ih (by omega)]
    by_cases hj : j = n
    · subst hj
      have hj : j < w := hn
      cases hv : v.getLsbD j <;> simp [hj]
    · have hlt : j < n + 1 ↔ j < n := by omega
      cases hv : v.getLsbD n <;> simp [BitVec.getLsbD_twoPow, hlt, Ne.symm hj]

/-- Every bit vector is the exclusive or of the powers of two at its set bits. -/
theorem bitSum_twoPow (v : BitVec w) : bitSum v (BitVec.twoPow w) w = v :=
  BitVec.eq_of_getLsbD_eq fun j hj => by rw [getLsbD_bitSum_twoPow v le_rfl, decide_eq_true hj, Bool.true_and]

/-- The images of the powers of two, the columns of the matrix of `f`. -/
def columns (f : BitVec w → BitVec w) : List (BitVec w) :=
  (List.range w).map fun i => f (BitVec.twoPow w i)

/-- The product of the matrix with columns `cols` and the vector `v`. -/
def mulVec (cols : List (BitVec w)) (v : BitVec w) : BitVec w :=
  bitSum v (fun i => cols.getD i 0#w) w

/-- A map that respects exclusive or is given by its columns. -/
theorem XorLinear.mulVec_columns {f : BitVec w → BitVec w} (hf : XorLinear f) (v : BitVec w) : mulVec (columns f) v = f v := by
  have hcol : ∀ i < w, (columns f).getD i 0#w = f (BitVec.twoPow w i) := fun i hi => by
    simp [columns, hi]
  rw [mulVec, bitSum_congr v hcol, ← hf.map_bitSum, bitSum_twoPow]

/-- The columns of the square of a map are the images of its columns. -/
theorem XorLinear.columns_square {f : BitVec w → BitVec w} (hf : XorLinear f) :
    columns (f ∘ f) = (columns f).map (mulVec (columns f)) := by
  rw [columns, columns, List.map_map]
  exact List.map_congr_left fun i _ => (hf.mulVec_columns _).symm

/-- `n` applications to `v` of the map with columns `cols`, by repeated squaring; `fuel` bounds the bits of `n`. -/
def powerVec (fuel : Nat) (cols : List (BitVec w)) (n : Nat) (v : BitVec w) : BitVec w :=
  match fuel with
  | 0 => v
  | fuel + 1 => powerVec fuel (cols.map (mulVec cols)) (n / 2) (if n % 2 = 1 then mulVec cols v else v)

theorem iterate_eq_iterate_square {α : Type} (f : α → α) (n : Nat) (v : α) :
    f^[n] v = (f ∘ f)^[n / 2] (if n % 2 = 1 then f v else v) := by
  rw [show f ∘ f = f^[2] from rfl, ← Function.iterate_mul]
  obtain hn | hn := Nat.mod_two_eq_zero_or_one n
  · rw [if_neg (by omega), show 2 * (n / 2) = n by omega]
  · rw [if_pos hn, ← Function.iterate_succ_apply, show (2 * (n / 2)).succ = n by omega]

/-- Repeated squaring computes the iterates of a map that respects exclusive or. -/
theorem XorLinear.powerVec_columns {f : BitVec w → BitVec w} (hf : XorLinear f) {fuel n : Nat} (hn : n < 2 ^ fuel)
    (v : BitVec w) : powerVec fuel (columns f) n v = f^[n] v := by
  induction fuel generalizing f n v with
  | zero =>
    obtain rfl : n = 0 := by omega
    rfl
  | succ fuel ih =>
    rw [powerVec, ← hf.columns_square, ih (hf.comp hf) (by omega), hf.mulVec_columns, ← iterate_eq_iterate_square]

end

/-! ### The period of the pseudo-random register -/

/-- The dither bit is an exclusive or of bits (R171). -/
theorem prbsBit_xor (a b : BitVec 16) : prbsBit (a ^^^ b) = (prbsBit a ^^ prbsBit b) := by
  simp only [prbsBit, BitVec.getLsbD_xor, Bool.xor_assoc, Bool.xor_left_comm]

/-- `prbs_step` is a linear-feedback shift register (R171). -/
theorem prbsNext_xorLinear : XorLinear prbsNext := fun a b => by
  refine BitVec.eq_of_getLsbD_eq fun j hj => ?_
  rw [BitVec.getLsbD_xor]
  cases j with
  | zero => simp only [getLsbD_prbsNext_zero, prbsBit_xor]
  | succ j =>
    have hj' : j < 15 := by omega
    simp only [getLsbD_prbsNext_succ _ hj', BitVec.getLsbD_xor]

/-- A point of period `n` has no smaller period if it has none of the periods `n / p`, `p` a prime factor of `n`. -/
theorem minimalPeriod_eq_of_prime_factors {α : Type} {f : α → α} {x : α} {n : Nat} (h : Function.IsPeriodicPt f n x)
    (hp : ∀ p, p.Prime → p ∣ n → ¬Function.IsPeriodicPt f (n / p) x) :
    Function.minimalPeriod f x = n := by
  obtain ⟨k, hk⟩ := h.minimalPeriod_dvd
  by_contra hne
  obtain ⟨p, hprime, j, rfl⟩ := Nat.exists_prime_and_dvd (n := k) fun h1 => hne (by rw [hk, h1, Nat.mul_one])
  have hn' : n = p * (Function.minimalPeriod f x * j) := by rw [hk]; ring
  refine hp p hprime ⟨_, hn'⟩ ?_
  rw [Nat.div_eq_of_eq_mul_right hprime.pos hn']
  exact (Function.isPeriodicPt_minimalPeriod f x).mul_const j

/-- The states of the register after 65535 steps, and after 65535 divided by each of its prime factors. -/
theorem prbsNext_iterates_one : prbsNext^[65535] 1 = 1 ∧
    prbsNext^[21845] 1 ≠ 1 ∧ prbsNext^[13107] 1 ≠ 1 ∧ prbsNext^[3855] 1 ≠ 1 ∧ prbsNext^[255] 1 ≠ 1 := by
  have hpower : ∀ n < 65536, prbsNext^[n] 1 = powerVec 16 (columns prbsNext) n 1 := fun n hn =>
    (prbsNext_xorLinear.powerVec_columns hn 1).symm
  rw [hpower 65535 (by decide), hpower 21845 (by decide), hpower 13107 (by decide), hpower 3855 (by decide),
    hpower 255 (by decide)]
  decide +kernel

/-- The prime factors of 65535. -/
theorem prime_dvd_65535 {p : Nat} (hp : p.Prime) (h : p ∣ 65535) : p = 3 ∨ p = 5 ∨ p = 17 ∨ p = 257 := by
  rw [show 65535 = 3 * (5 * (17 * 257)) from rfl, hp.dvd_mul, hp.dvd_mul, hp.dvd_mul] at h
  have eq_of_dvd : ∀ q : Nat, q.Prime → p ∣ q → p = q := fun q hq => (Nat.prime_dvd_prime_iff_eq hp hq).mp
  exact h.imp (eq_of_dvd 3 (by norm_num)) (Or.imp (eq_of_dvd 5 (by norm_num))
    (Or.imp (eq_of_dvd 17 (by norm_num)) (eq_of_dvd 257 (by norm_num))))

/-- R172: the period of the register from seed 1. -/
theorem minimalPeriod_prbsNext_one : Function.minimalPeriod prbsNext 1 = 65535 := by
  obtain ⟨hperiod, h3, h5, h17, h257⟩ := prbsNext_iterates_one
  refine minimalPeriod_eq_of_prime_factors hperiod fun p hp hdvd => ?_
  obtain rfl | rfl | rfl | rfl := prime_dvd_65535 hp hdvd
  exacts [h3, h5, h17, h257]

/-- R172: from a nonzero seed the register never reaches zero. -/
theorem iterate_prbsNext_ne_zero {l : BitVec 16} (h : l ≠ 0) (n : Nat) : prbsNext^[n] l ≠ 0 :=
  Function.Iterate.rec (fun r : BitVec 16 => r ≠ 0) h (fun _ => prbsNext_ne_zero) n

/-- R172: the 65535 states of one period are distinct and nonzero, so they are all the nonzero 16-bit values. -/
theorem exists_iterate_prbsNext_eq {v : BitVec 16} (hv : v ≠ 0) : ∃ k < 65535, prbsNext^[k] 1 = v := by
  have hmaps : Set.MapsTo (fun k => prbsNext^[k] 1) (Finset.range 65535) (Finset.univ.erase (0 : BitVec 16)) := fun k _ =>
    Finset.mem_coe.mpr (Finset.mem_erase.mpr ⟨iterate_prbsNext_ne_zero (by decide) k, Finset.mem_univ _⟩)
  have hinj : Set.InjOn (fun k => prbsNext^[k] 1) (Finset.range 65535) := by
    rw [Finset.coe_range, ← minimalPeriod_prbsNext_one]
    exact Function.iterate_injOn_Iio_minimalPeriod
  have hcard : (Finset.univ.erase (0 : BitVec 16)).card ≤ (Finset.range 65535).card := by
    rw [Finset.card_erase_of_mem (Finset.mem_univ _), Finset.card_univ, Fintype.card_congr BitVec.equivFin.toEquiv,
      Fintype.card_fin, Finset.card_range]
    decide
  obtain ⟨k, hk, hkv⟩ := Finset.surjOn_of_injOn_of_card_le _ hmaps hinj hcard
    (Finset.mem_coe.mpr (Finset.mem_erase.mpr ⟨hv, Finset.mem_univ v⟩))
  exact ⟨k, Finset.mem_range.mp hk, hkv⟩

end Sys2Proof.Machine

namespace Sys2Proof.Proofs
open Sys2Proof Sys2Proof.Machine

/-! ### The obligations -/

/-- Settles O25: each 17-bit sum is the stage's sum, its low bits are the accumulator and its bit 16 is the carry. -/
theorem modStepOnSeventeenBitSums : Obligations.ModStepOnSeventeenBitSums := by
  intro mag m s1 a0 s2 a1 s3 a2 c1 c2 c3 e2 y
  obtain ⟨ha0, hc1⟩ : a0 = BitVec.ofNat 16 (stage1Sum mag m) ∧ c1 = carryBit (stage1Sum mag m) :=
    stageSum_parts (toNat_seventeenBitSum _ _ _)
  obtain ⟨ha1, hc2⟩ : a1 = BitVec.ofNat 16 (stage2Sum mag m) ∧ c2 = carryBit (stage2Sum mag m) :=
    stageSum_parts ((toNat_seventeenBitSum_of_two _ _).trans (by rw [ha0, stage2Sum]))
  obtain ⟨ha2, hc3⟩ : a2 = BitVec.ofNat 16 (stage3Sum mag m) ∧ c3 = carryBit (stage3Sum mag m) :=
    stageSum_parts ((toNat_seventeenBitSum_of_two _ _).trans (by rw [ha1, stage3Sum]))
  have he2 : e2 = carryDifference mag m := by rw [carryDifference, ← hc2, ← hc3]
  have hy : y = (magHigh mag).toNat + correction mag m := by rw [correction, ← hc1, ← he2, magHigh]
  rw [hy, ha0, ha1, ha2, hc3, he2]
  refine ⟨modStep_of_out_of_range, fun hlo hhi => ?_⟩
  obtain ⟨v, hstep, hv⟩ := modStep_of_in_range hlo hhi
  exact ⟨_, v, hstep, hv, rfl, rfl, rfl, rfl, congrArg Int.ofNat (modNext_dc0 mag m), modNext_dc1 mag m⟩

/-- Settles O28, by the account of one step, summed along the run. -/
theorem modulatorHasNoBias : Obligations.ModulatorHasNoBias :=
  fun _ _ _ _ _ h => ⟨modRun_length h, modRun_lfsr h, modRun_account h⟩

/-- Settles O29: the steps in order are the run of the service, and the write leaves every element as R179 says. -/
theorem genEndFillsTheBuffer : Obligations.GenEndFillsTheBuffer := by
  intro s r h0
  refine ⟨fun v hr hb hsteps => ?_, fun k hk f hr hb hsteps hf => ?_, exec_genEnd_refused⟩
  · have hrun : modRun nGen (s.config.table s.tidx) s.modu = .ok (r 256, v) := by
      rw [← h0]
      exact hsteps.modRun_eq
    have hlen : v.length = 256 := modRun_length hrun
    refine ⟨serviceWrite s v, s.freeGen + nGen, exec_genEnd_next hr hb hrun, ?_, ?_, ?_⟩
    · exact fun ht i hi => read?_serviceWrite_of_untorn ht (hlen ▸ hi)
    · exact fun ht i hi => read?_serviceWrite_of_torn ht (hlen ▸ hi)
    · exact fun a ha => read?_serviceWrite_outside (hlen ▸ ha)
  · obtain ⟨rfl, -⟩ := modStep_error hf
    have hrun : modRun nGen (s.config.table s.tidx) s.modu = .error .modRange := by
      rw [← h0]
      exact modRun_error_of_step hk hsteps hf
    exact ⟨rfl, (exec_genEnd_enabled hr hb).trans (genEndEffect_error hrun)⟩

/-- Settles O23: the rules of the register bit by bit, and that it never reaches zero. -/
theorem prbsShiftsLeftAndStaysNonzero : Obligations.PrbsShiftsLeftAndStaysNonzero := fun l =>
  ⟨(Bool.xor_assoc _ _ _).symm, getLsbD_prbsNext_zero l, fun _ => getLsbD_prbsNext_succ l, prbsNext_ne_zero⟩

/-- Settles O24: 65535 is the minimal period of seed 1, and a period of that length visits every nonzero value. -/
theorem prbsHasMaximalPeriod : Obligations.PrbsHasMaximalPeriod := by
  refine ⟨prbsNext_iterates_one.1, fun k hpos hlt hk => ?_, fun v => exists_iterate_prbsNext_eq⟩
  have hle : Function.minimalPeriod prbsNext 1 ≤ k := Function.IsPeriodicPt.minimalPeriod_le hpos hk
  rw [minimalPeriod_prbsNext_one] at hle
  omega

/-- Settles O27: a fixed vector, by evaluation. -/
theorem scenarioB : Obligations.ScenarioB := by
  unfold Obligations.ScenarioB
  decide

end Sys2Proof.Proofs
end

section
/-! PROOFS. The Debounce Classifier (43_debounce.md): the rows of `deb_tick` (R193), what `TICK` answers in `RUN` (R194, R195), and
what a press of any length and its release leave (R196, R197). -/

namespace Sys2Proof.Machine

/-! ### The rows of the transition table -/

section
variable {c : Config} {t : Nat}

theorem debTick_pressed_of_lt (h : t < c.tLong) : debTick c true t = (t + 1, .none) :=
  if_pos h

theorem debTick_pressed_at_tLong (c : Config) : debTick c true c.tLong = (c.tLong + 1, .long) :=
  (if_neg (Nat.lt_irrefl _)).trans (if_pos rfl)

theorem debTick_pressed_of_gt (h : c.tLong < t) : debTick c true t = (t, .none) :=
  (if_neg h.not_gt).trans (if_neg h.ne')

theorem debTick_released_of_gt (h : c.tLong < t) : debTick c false t = (c.tShort / 2, .none) :=
  if_pos h

theorem debTick_released_of_mem (hlo : c.tShort ≤ t) (hhi : t ≤ c.tLong) : debTick c false t = (c.tShort / 2, .short) :=
  (if_neg hhi.not_gt).trans (if_pos hlo)

/-- Below `T_SHORT` a released tick counts down to 0 and stays there: row 5 and the second case of row 6. -/
theorem debTick_released_of_lt (h : t < c.tShort) : debTick c false t = (t - 1, .none) := by
  have hlong : ¬c.tLong < t := (h.trans c.tShort_lt_tLong).not_gt
  refine (if_neg hlong).trans ((if_neg h.not_ge).trans ?_)
  cases t with
  | zero => rfl
  | succ k => exact if_pos k.succ_pos

end

/-! ### What `TICK` answers -/

/-- `TICK` in `RUN` answers a next state, for either level (R194). -/
theorem exec_tick_run {s : State} (hr : s.runst = .run) (level : Bool) : exec (.tick level) s = .next (tickEffect level s) :=
  State.external_run hr (tickEffect level)

theorem firModeAfter_eq_ite (ev : DebEvent) (m : Fin nbFir) : firModeAfter ev m = if ev = .short then m + 1 else m := by
  cases ev <;> rfl

theorem iirModeAfter_eq_ite (ev : DebEvent) (m : Fin nbIir) : iirModeAfter ev m = if ev = .long then m + 1 else m := by
  cases ev <;> rfl

/-- R194: the whole next state, in the fields that `TICK` writes. -/
theorem tickEffect_eq (level : Bool) (s : State) :
    tickEffect level s = { s with
      t := (debTick s.config level s.t).1
      firMode := if (debTick s.config level s.t).2 = .short then s.firMode + 1 else s.firMode
      iirMode := if (debTick s.config level s.t).2 = .long then s.iirMode + 1 else s.iirMode
      output := .debounce (debTick s.config level s.t).2 } := by
  rw [← firModeAfter_eq_ite, ← iirModeAfter_eq_ite]
  rfl

/-- The elements that `TICK` owns, after a tick whose row of the table is known. -/
theorem tickEffect_of_row {level : Bool} {s : State} {t : Nat} {ev : DebEvent} (h : debTick s.config level s.t = (t, ev)) :
    (tickEffect level s).t = t ∧ (tickEffect level s).firMode = firModeAfter ev s.firMode ∧
      (tickEffect level s).iirMode = iirModeAfter ev s.iirMode := by
  simp [tickEffect, h]

/-! ### A press and its release -/

/-- `u` runs, with the counter and the modes that `k` pressed ticks leave from the idle counter of `s`: the counter stops one above
`T_LONG`, and the one `Long` on the way there has advanced `IIR_MODE` (R196 (a), (b)). -/
structure PressedFor (s : State) (k : Nat) (u : State) : Prop where
  running : u.runst = .run
  config_eq : u.config = s.config
  t_eq : u.t = min k (s.config.tLong + 1)
  firMode_eq : u.firMode = s.firMode
  iirMode_eq : u.iirMode = if s.config.tLong < k then s.iirMode + 1 else s.iirMode

section
variable {s u : State} {k : Nat}

theorem PressedFor.zero (hr : s.runst = .run) (ht : s.t = 0) : PressedFor s 0 s :=
  ⟨hr, rfl, by rw [ht, Nat.zero_min], rfl, (if_neg (Nat.not_lt_zero _)).symm⟩

theorem PressedFor.t_of_le (h : PressedFor s k u) (hk : k ≤ s.config.tLong) : u.t = k :=
  h.t_eq.trans (min_eq_left (Nat.le_succ_of_le hk))

theorem PressedFor.t_of_gt (h : PressedFor s k u) (hk : s.config.tLong < k) : u.t = s.config.tLong + 1 :=
  h.t_eq.trans (min_eq_right hk)

theorem PressedFor.iirMode_of_le (h : PressedFor s k u) (hk : k ≤ s.config.tLong) : u.iirMode = s.iirMode :=
  h.iirMode_eq.trans (if_neg hk.not_gt)

theorem PressedFor.iirMode_of_gt (h : PressedFor s k u) (hk : s.config.tLong < k) : u.iirMode = s.iirMode + 1 :=
  h.iirMode_eq.trans (if_pos hk)

/-- One more pressed tick: below `T_LONG` it counts, at `T_LONG` it is the `Long`, above it changes nothing. -/
theorem PressedFor.succ (h : PressedFor s k u) : PressedFor s (k + 1) (tickEffect true u) := by
  obtain hk | rfl | hk := Nat.lt_trichotomy k s.config.tLong
  · have hrow : debTick u.config true u.t = (k + 1, .none) := by
      rw [h.config_eq, h.t_of_le hk.le, debTick_pressed_of_lt hk]
    obtain ⟨ht, hfir, hiir⟩ := tickEffect_of_row hrow
    exact ⟨h.running, h.config_eq, ht.trans (by omega), hfir.trans h.firMode_eq,
      (hiir.trans (h.iirMode_of_le hk.le)).trans (if_neg (Nat.not_lt.mpr hk)).symm⟩
  · have hrow : debTick u.config true u.t = (s.config.tLong + 1, .long) := by
      rw [h.config_eq, h.t_of_le le_rfl, debTick_pressed_at_tLong]
    obtain ⟨ht, hfir, hiir⟩ := tickEffect_of_row hrow
    exact ⟨h.running, h.config_eq, ht.trans (min_self _).symm, hfir.trans h.firMode_eq,
      (hiir.trans (congrArg (· + 1) (h.iirMode_of_le le_rfl))).trans (if_pos (Nat.lt_succ_self _)).symm⟩
  · have hrow : debTick u.config true u.t = (s.config.tLong + 1, .none) := by
      rw [h.config_eq, h.t_of_gt hk, debTick_pressed_of_gt (Nat.lt_succ_self _)]
    obtain ⟨ht, hfir, hiir⟩ := tickEffect_of_row hrow
    exact ⟨h.running, h.config_eq, ht.trans (by omega), hfir.trans h.firMode_eq,
      (hiir.trans (h.iirMode_of_gt hk)).trans (if_pos (hk.trans (Nat.lt_succ_self k))).symm⟩

/-- `n` pressed ticks more, by induction on `n`. -/
theorem PressedFor.reaches_press (n : Nat) (h : PressedFor s k u) : Reaches (PressedFor s (k + n)) (press n) u := by
  induction n generalizing k u with
  | zero => exact .nil h
  | succ n ih =>
    have hrest := ih h.succ
    rw [Nat.add_right_comm] at hrest
    exact .cons (exec_tick_run h.running true) hrest

section
variable (h : PressedFor s k u)
include h

/-- R196 (c): the release of a press shorter than `T_SHORT` emits nothing. -/
theorem PressedFor.release_of_lt (hk : k < s.config.tShort) :
    (tickEffect false u).t = k - 1 ∧ (tickEffect false u).firMode = s.firMode ∧ (tickEffect false u).iirMode = s.iirMode := by
  have hle : k ≤ s.config.tLong := (hk.trans s.config.tShort_lt_tLong).le
  have hrow : debTick u.config false u.t = (k - 1, .none) := by
    rw [h.config_eq, h.t_of_le hle, debTick_released_of_lt hk]
  obtain ⟨ht, hfir, hiir⟩ := tickEffect_of_row hrow
  exact ⟨ht, hfir.trans h.firMode_eq, hiir.trans (h.iirMode_of_le hle)⟩

/-- R196 (c): the release of a press of `T_SHORT` to `T_LONG` ticks emits the `Short`. -/
theorem PressedFor.release_of_mem (hlo : s.config.tShort ≤ k) (hhi : k ≤ s.config.tLong) :
    (tickEffect false u).t = s.config.tShort / 2 ∧ (tickEffect false u).firMode = s.firMode + 1 ∧
      (tickEffect false u).iirMode = s.iirMode := by
  have hrow : debTick u.config false u.t = (s.config.tShort / 2, .short) := by
    rw [h.config_eq, h.t_of_le hhi, debTick_released_of_mem hlo hhi]
  obtain ⟨ht, hfir, hiir⟩ := tickEffect_of_row hrow
  exact ⟨ht, hfir.trans (congrArg (· + 1) h.firMode_eq), hiir.trans (h.iirMode_of_le hhi)⟩

/-- R197: the release of a press longer than `T_LONG` emits nothing after the `Long`. -/
theorem PressedFor.release_of_gt (hk : s.config.tLong < k) :
    (tickEffect false u).t = s.config.tShort / 2 ∧ (tickEffect false u).firMode = s.firMode ∧
      (tickEffect false u).iirMode = s.iirMode + 1 := by
  have hrow : debTick u.config false u.t = (s.config.tShort / 2, .none) := by
    rw [h.config_eq, h.t_of_gt hk, debTick_released_of_gt (Nat.lt_succ_self _)]
  obtain ⟨ht, hfir, hiir⟩ := tickEffect_of_row hrow
  exact ⟨ht, hfir.trans h.firMode_eq, hiir.trans (h.iirMode_of_gt hk)⟩

end

end

end Sys2Proof.Machine

namespace Sys2Proof.Proofs
open Sys2Proof Sys2Proof.Machine

/-! ### The obligations -/

/-- Settles O35, by induction on the length of the press; the release is the row of the table at the counter the press leaves. -/
theorem oneEventPerPress : Obligations.OneEventPerPress := by
  intro s n hr ht
  obtain ⟨u, hrun, hu⟩ := (PressedFor.zero hr ht).reaches_press n
  rw [Nat.zero_add] at hu
  exact ⟨u, tickEffect false u, hrun, exec_tick_run hu.running false,
    fun hle => ⟨hu.t_of_le hle, hu.firMode_eq, hu.iirMode_of_le hle⟩,
    fun hgt => ⟨hu.t_of_gt hgt, hu.firMode_eq, hu.iirMode_of_gt hgt⟩,
    hu.release_of_lt, hu.release_of_mem, hu.release_of_gt⟩

/-- Settles O33: the rows one by one; rows 5 and 6 at the released level are one rule, since `0 - 1` is `0` on the counter. -/
theorem debounceTable : Obligations.DebounceTable := by
  intro c t
  refine ⟨debTick_pressed_of_lt, ?_, debTick_released_of_gt, debTick_released_of_mem, fun _ => debTick_released_of_lt,
    debTick_pressed_of_gt, ?_⟩
  · rintro rfl
    exact debTick_pressed_at_tLong c
  · rintro rfl
    exact debTick_released_of_lt c.one_le_tShort

/-- Settles O34: `TICK` answers its effect, and the effect writes the four fields. -/
theorem tickClassifiesAndAdvancesModes : Obligations.TickClassifiesAndAdvancesModes := by
  intro s level hr
  rw [exec_tick_run hr, tickEffect_eq]

end Sys2Proof.Proofs
end

section
/-! PROOFS. The Interrupt Dispatch (44_dispatch.md): what `IDLE`, `CFGF` and a reserved word do (R211, R213, R214), and how the
engine drains a stream whose adapter presents no more events: by at most two services (R220), in every weakly fair run (D39), and
by the machine's own steps at an empty port (R215). The work an Exchange leaves to the engine is the measure of all of them. -/

namespace Sys2Proof.Machine

/-! ### The work an Exchange leaves to the engine -/

/-- How many engine events an Exchange still needs (R215): two for a completion that waits, one for a service in progress. -/
def Exchange.work (x : Exchange) : Nat :=
  2 * x.pend.toNat + x.busy.toNat

/-- How many services of an Exchange are still to end (R220). -/
def Exchange.servicesLeft (x : Exchange) : Nat :=
  x.pend.toNat + x.busy.toNat

/-- Nothing is pending and no service is in progress (R220). -/
def Exchange.Drained (x : Exchange) : Prop :=
  x.pend = false ∧ x.busy = false

theorem Exchange.work_eq_zero_iff (x : Exchange) : x.work = 0 ↔ x.Drained := by
  simp [work, Drained]

theorem Exchange.work_le (x : Exchange) : x.work ≤ 3 := by
  have hp := x.pend.toNat_le
  have hb := x.busy.toNat_le
  unfold work
  omega

theorem Exchange.servicesLeft_le (x : Exchange) : x.servicesLeft ≤ 2 :=
  Nat.add_le_add x.pend.toNat_le x.busy.toNat_le

/-- The completion that waits is the greater part of the work. -/
theorem Exchange.pend_eq_of_work (x : Exchange) : x.pend = decide (2 ≤ x.work) := by
  cases hp : x.pend <;> cases hb : x.busy <;> simp [work, hp, hb]

/-- The service in progress is the odd part of the work. -/
theorem Exchange.busy_eq_of_work (x : Exchange) : x.busy = decide (x.work % 2 = 1) := by
  cases hp : x.pend <;> cases hb : x.busy <;> simp [work, hp, hb]

/-- The work tells which of the two flags are set. -/
theorem Exchange.flags_eq_of_work_eq {x y : Exchange} (h : x.work = y.work) : x.pend = y.pend ∧ x.busy = y.busy := by
  rw [x.pend_eq_of_work, y.pend_eq_of_work, x.busy_eq_of_work, y.busy_eq_of_work, h]
  exact ⟨rfl, rfl⟩

section
variable {x : Exchange}

theorem Exchange.work_accept_lt (h : x.canBegin = true) : x.accept.work < x.work := by
  obtain ⟨hp, hb⟩ := x.canBegin_iff.mp h
  simp [work, hp, hb]

theorem Exchange.servicesLeft_accept (h : x.canBegin = true) : x.accept.servicesLeft = x.servicesLeft := by
  obtain ⟨hp, hb⟩ := x.canBegin_iff.mp h
  simp [servicesLeft, hp, hb]

theorem Exchange.work_finish_lt (h : x.busy = true) : x.finish.work < x.work := by
  simp [work, h]

theorem Exchange.servicesLeft_finish_lt (h : x.busy = true) : x.finish.servicesLeft < x.servicesLeft := by
  simp [servicesLeft, h]

end

/-! ### What the events of a stream without its adapter's make of its Exchange -/

/-- What an event that is none of a stream's adapter makes of the stream's Exchange: `begins` says that the event is the stream's
`s.BEGIN`, `ends` that it is the stream's `s.END`; every other event leaves the Exchange or resets it (R215, R260). -/
def Exchange.Serves (begins ends : Prop) (x y : Exchange) : Prop :=
  (begins ∧ ¬ends ∧ x.canBegin = true ∧ y = x.accept) ∨ (ends ∧ ¬begins ∧ x.busy = true ∧ y = x.finish) ∨
    (¬begins ∧ ¬ends ∧ (y = x ∨ y = Exchange.reset))

section
variable {begins ends : Prop} {x y : Exchange} (h : Exchange.Serves begins ends x y)
include h

theorem Exchange.Serves.work_le : y.work ≤ x.work := by
  obtain ⟨-, -, hcan, rfl⟩ | ⟨-, -, hb, rfl⟩ | ⟨-, -, rfl | rfl⟩ := h
  · exact (work_accept_lt hcan).le
  · exact (work_finish_lt hb).le
  · exact le_rfl
  · exact Nat.zero_le _

theorem Exchange.Serves.work_lt (ht : begins ∨ ends) : y.work < x.work := by
  obtain ⟨-, -, hcan, rfl⟩ | ⟨-, -, hb, rfl⟩ | ⟨hbegins, hends, -⟩ := h
  · exact work_accept_lt hcan
  · exact work_finish_lt hb
  · exact absurd ht (not_or.mpr ⟨hbegins, hends⟩)

theorem Exchange.Serves.servicesLeft_le : y.servicesLeft ≤ x.servicesLeft := by
  obtain ⟨-, -, hcan, rfl⟩ | ⟨-, -, hb, rfl⟩ | ⟨-, -, rfl | rfl⟩ := h
  · exact (servicesLeft_accept hcan).le
  · exact (servicesLeft_finish_lt hb).le
  · exact le_rfl
  · exact Nat.zero_le _

theorem Exchange.Serves.servicesLeft_lt (ht : ends) : y.servicesLeft < x.servicesLeft := by
  obtain ⟨-, hends, -⟩ | ⟨-, -, hb, rfl⟩ | ⟨-, hends, -⟩ := h
  · exact absurd ht hends
  · exact servicesLeft_finish_lt hb
  · exact absurd ht hends

end

section
variable {i : Instr} {e : PortEvent} {s t : State}

/-- R34, R215: an event but the acquisition adapter's own two. -/
theorem exec_acq_serves (herr : i ≠ .acqErr) (hdone : ∀ data, i ≠ .acqDone data) (h : exec i s = .next t) :
    Exchange.Serves (i = .acqBegin) (i = .acqEnd) s.acq t.acq := by
  have hc := exec_cases h
  cases i with
  | acqErr => exact absurd rfl herr
  | acqDone data => exact absurd rfl (hdone data)
  | acqBegin =>
    obtain ⟨-, hcan, rfl⟩ := hc
    exact .inl ⟨rfl, nofun, hcan, rfl⟩
  | acqEnd =>
    obtain ⟨-, hb, file, y0, y1, -, rfl⟩ := hc
    exact .inr (.inl ⟨rfl, nofun, hb, rfl⟩)
  | rst =>
    obtain rfl := hc
    exact .inr (.inr ⟨nofun, nofun, .inr rfl⟩)
  | idle | genDone | genBegin | genEnd | genErr | tick | cfgf =>
    obtain ⟨hacq, -⟩ := exec_keepsForeignElements Instr.noConfusion h
    exact .inr (.inr ⟨nofun, nofun, .inl (hacq (by simp [IsAcquisition])).1⟩)

/-- R34, R215: an event but the generation adapter's own two. -/
theorem exec_gen_serves (herr : i ≠ .genErr) (hdone : i ≠ .genDone) (h : exec i s = .next t) :
    Exchange.Serves (i = .genBegin) (i = .genEnd) s.gen t.gen := by
  have hc := exec_cases h
  cases i with
  | genErr => exact absurd rfl herr
  | genDone => exact absurd rfl hdone
  | genBegin =>
    obtain ⟨-, hcan, rfl⟩ := hc
    exact .inl ⟨rfl, nofun, hcan, rfl⟩
  | genEnd =>
    obtain ⟨-, hb, m, v, -, rfl⟩ := hc
    exact .inr (.inl ⟨rfl, nofun, hb, rfl⟩)
  | rst =>
    obtain rfl := hc
    exact .inr (.inr ⟨nofun, nofun, .inr rfl⟩)
  | idle | acqDone | acqBegin | acqEnd | acqErr | tick | cfgf =>
    obtain ⟨-, hgen, -⟩ := exec_keepsForeignElements Instr.noConfusion h
    exact .inr (.inr ⟨nofun, nofun, .inl (hgen (by simp [IsGeneration])).1⟩)

/-- What stands on the ports is an event of the table, or a reserved word, which writes no Exchange (R94, R214). -/
theorem applyEvent_exec_or_keeps (h : applyEvent e s = .next t) :
    (∃ i, decode e = .ok i ∧ exec i s = .next t) ∨
      ∃ w, decode e = .error (.reserved w) ∧ t.acq = s.acq ∧ t.gen = s.gen ∧ t.port = s.port := by
  obtain ⟨i, hd, -⟩ | ⟨w, hd, ⟨-, rfl⟩ | ⟨-, rfl⟩⟩ := applyEvent_cases h
  · exact .inl ⟨i, hd, applyEvent_ok hd s ▸ h⟩
  · exact .inr ⟨w, hd, rfl, rfl, rfl⟩
  · exact .inr ⟨w, hd, rfl, rfl, rfl⟩

theorem applyEvent_acq_serves (hq : decode e ≠ .ok .acqErr ∧ ∀ data, decode e ≠ .ok (.acqDone data))
    (h : applyEvent e s = .next t) :
    Exchange.Serves (decode e = .ok .acqBegin) (decode e = .ok .acqEnd) s.acq t.acq := by
  obtain ⟨i, hd, hi⟩ | ⟨w, hd, hacq, -⟩ := applyEvent_exec_or_keeps h
  · simp only [hd, ne_eq, Except.ok.injEq] at hq ⊢
    exact exec_acq_serves hq.1 hq.2 hi
  · exact .inr (.inr ⟨by simp [hd], by simp [hd], .inl hacq⟩)

theorem applyEvent_gen_serves (hq : decode e ≠ .ok .genErr ∧ decode e ≠ .ok .genDone) (h : applyEvent e s = .next t) :
    Exchange.Serves (decode e = .ok .genBegin) (decode e = .ok .genEnd) s.gen t.gen := by
  obtain ⟨i, hd, hi⟩ | ⟨w, hd, -, hgen, -⟩ := applyEvent_exec_or_keeps h
  · simp only [hd, ne_eq, Except.ok.injEq] at hq ⊢
    exact exec_gen_serves hq.1 hq.2 hi
  · exact .inr (.inr ⟨by simp [hd], by simp [hd], .inl hgen⟩)

end

/-! ### A stream in a weakly fair run -/

/-- The Exchanges `x` of one stream along a run: from `n` on its adapter presents nothing and the engine is weakly fair to it
(R220, D39). `begins k` says that event `k` is the stream's `s.BEGIN`, `ends k` that it is its `s.END`. -/
structure FairService (x : Nat → Exchange) (begins ends : Nat → Prop) (n : Nat) : Prop where
  serves : ∀ k ≥ n, Exchange.Serves (begins k) (ends k) (x k) (x (k + 1))
  beginTaken : ∀ k ≥ n, (∀ m ≥ k, (x m).pend = true ∧ (x m).busy = false) → ∃ m ≥ k, begins m
  endTaken : ∀ k ≥ n, (∀ m ≥ k, (x m).busy = true) → ∃ m ≥ k, ends m

namespace FairService

section
variable {x : Nat → Exchange} {begins ends : Nat → Prop} {n : Nat} (h : FairService x begins ends n)
include h

theorem work_antitone {k m : Nat} (hk : n ≤ k) (hm : k ≤ m) : (x m).work ≤ (x k).work := by
  induction m, hm using Nat.le_induction with
  | base => exact le_rfl
  | succ m hm ih => exact (h.serves m (hk.trans hm)).work_le.trans ih

/-- Work that is left does not stay as it is: the engine event that it keeps enabled is taken. -/
theorem exists_work_lt {k : Nat} (hk : n ≤ k) (hwork : ¬(x k).Drained) : ∃ m ≥ n, (x m).work < (x k).work := by
  by_contra! hleast
  have same : ∀ m ≥ k, (x m).pend = (x k).pend ∧ (x m).busy = (x k).busy := fun m hm =>
    Exchange.flags_eq_of_work_eq (le_antisymm (h.work_antitone hk hm) (hleast m (hk.trans hm)))
  have untaken : ∀ m ≥ k, ¬(begins m ∨ ends m) := fun m hm ht =>
    have hlt := (h.serves m (hk.trans hm)).work_lt ht
    absurd (hlt.trans_le (h.work_antitone hk hm)) (hleast (m + 1) (by omega)).not_gt
  cases hb : (x k).busy with
  | true =>
    obtain ⟨m, hm, hends⟩ := h.endTaken k hk fun m hm => (same m hm).2.trans hb
    exact untaken m hm (.inr hends)
  | false =>
    have hp : (x k).pend = true := by simpa [Exchange.Drained, hb] using hwork
    obtain ⟨m, hm, hbegins⟩ := h.beginTaken k hk fun m hm => ⟨(same m hm).1.trans hp, (same m hm).2.trans hb⟩
    exact untaken m hm (.inl hbegins)

/-- R220: where the work is least, there is none, and none comes back. -/
theorem drained : ∃ m ≥ n, ∀ k ≥ m, (x k).Drained := by
  obtain ⟨m, hm, hleast⟩ := (measure fun k => (x k).work).wf.has_min {k | n ≤ k} ⟨n, Nat.le_refl n⟩
  have hdrained : (x m).Drained := by
    by_contra hwork
    obtain ⟨j, hj, hlt⟩ := h.exists_work_lt hm hwork
    exact hleast j hj hlt
  refine ⟨m, hm, fun k hk => (x k).work_eq_zero_iff.mp (Nat.le_zero.mp ?_)⟩
  exact (h.work_antitone hm hk).trans ((x m).work_eq_zero_iff.mpr hdrained).le

/-- Each `s.END` is one of the services that were left. -/
theorem countP_ends_add_servicesLeft_le [DecidablePred ends] (len : Nat) :
    (List.range len).countP (fun j => decide (ends (n + j))) + (x (n + len)).servicesLeft ≤ (x n).servicesLeft := by
  induction len with
  | zero => simp
  | succ len ih =>
    have hserves := h.serves (n + len) (Nat.le_add_right n len)
    have hle := hserves.servicesLeft_le
    rw [List.range_succ, List.countP_append, List.countP_singleton, ← Nat.add_assoc]
    by_cases hends : ends (n + len)
    · have hlt := hserves.servicesLeft_lt hends
      simp only [hends, decide_true, if_true]
      omega
    · simp only [hends, decide_false, Bool.false_eq_true, if_false]
      omega

/-- R220: at most two services end. -/
theorem countP_ends_le [DecidablePred ends] (len : Nat) :
    (List.range len).countP (fun j => decide (ends (n + j))) ≤ 2 :=
  (Nat.le_add_right _ _).trans ((h.countP_ends_add_servicesLeft_le len).trans (x n).servicesLeft_le)

end

end FairService

section
variable {ev : Nat → PortEvent} {σ : Nat → State} {n : Nat} (hrun : IsRun ev σ) (hfair : WeaklyFair ev σ)
  (hr : ∀ m ≥ n, (σ m).runst = .run)
include hrun hfair hr

theorem IsRun.acq_fairService
    (hq : ∀ m ≥ n, decode (ev m) ≠ .ok .acqErr ∧ ∀ data, decode (ev m) ≠ .ok (.acqDone data)) :
    FairService (fun k => (σ k).acq) (fun k => decode (ev k) = .ok .acqBegin) (fun k => decode (ev k) = .ok .acqEnd) n where
  serves k hk := applyEvent_acq_serves (hq k hk) (hrun k)
  beginTaken k hk hen := hfair .acqBegin (by simp [IsEngine]) k fun m hm => ⟨hr m (hk.trans hm), hen m hm⟩
  endTaken k hk hen := hfair .acqEnd (by simp [IsEngine]) k fun m hm => ⟨hr m (hk.trans hm), hen m hm⟩

theorem IsRun.gen_fairService (hq : ∀ m ≥ n, decode (ev m) ≠ .ok .genErr ∧ decode (ev m) ≠ .ok .genDone) :
    FairService (fun k => (σ k).gen) (fun k => decode (ev k) = .ok .genBegin) (fun k => decode (ev k) = .ok .genEnd) n where
  serves k hk := applyEvent_gen_serves (hq k hk) (hrun k)
  beginTaken k hk hen := hfair .genBegin (by simp [IsEngine]) k fun m hm => ⟨hr m (hk.trans hm), hen m hm⟩
  endTaken k hk hen := hfair .genEnd (by simp [IsEngine]) k fun m hm => ⟨hr m (hk.trans hm), hen m hm⟩

end

/-! ### The services of one stream -/

/-- In the states `R` the two engine events `b` and `e` of the stream with the Exchange `st` complete wherever they are enabled,
and lead to such states again. -/
structure ServesIn (R : State → Prop) (st : State → Exchange) (b e : Instr) : Prop where
  begins : ∀ {s}, R s → (st s).pend = true → (st s).busy = false → ∃ t, exec b s = .next t ∧ R t ∧ st t = (st s).accept
  ends : ∀ {s}, R s → (st s).busy = true → ∃ t, exec e s = .next t ∧ R t ∧ st t = (st s).finish

/-- `RUN`, with the banks within the contract of R80. -/
def State.AcqServing (s : State) : Prop :=
  s.runst = .run ∧ s.config.BanksInContract

/-- `RUN`, with the table within the contract of R68 and the modulator within its ranges. -/
def State.GenServing (s : State) : Prop :=
  s.runst = .run ∧ s.config.TableInContract ∧ s.modu.Inv

theorem acqServing_servesIn : ServesIn State.AcqServing State.acq .acqBegin .acqEnd where
  begins := fun ⟨hr, hc⟩ hp hb => ⟨_, exec_acqBegin_enabled hr hp hb, ⟨hr, hc⟩, rfl⟩
  ends {s} := fun ⟨hr, hc⟩ hb =>
    have hrun := runFilter_under_contract (f := s.lmf) s.iirs (length_serviceSamples s) hc
    ⟨_, (exec_acqEnd_enabled hr hb).trans (acqEndEffect_ok hrun), ⟨hr, hc⟩, rfl⟩

theorem genServing_servesIn : ServesIn State.GenServing State.gen .genBegin .genEnd where
  begins := fun ⟨hr, hc⟩ hp hb => ⟨_, exec_genBegin_enabled hr hp hb, ⟨hr, hc⟩, rfl⟩
  ends {s} := fun ⟨hr, htable, hm⟩ hb => by
    obtain ⟨m, v, hrun⟩ := modRun_under_contract (htable s.tidx) nGen hm
    exact ⟨_, exec_genEnd_next hr hb hrun, ⟨hr, htable, modRun_inv hm hrun⟩, rfl⟩

/-- The trace of at most two services that drains an Exchange (R220): the end of the service in progress, then the service of the
completion that waits. -/
def Exchange.drainingTrace (x : Exchange) (b e : Instr) : List Instr :=
  (if x.busy then [e] else []) ++ if x.pend then [b, e] else []

theorem Exchange.drainingTrace_mem (x : Exchange) (b e : Instr) :
    x.drainingTrace b e ∈ [[], [e], [b, e], e :: [b, e]] := by
  cases hb : x.busy <;> cases hp : x.pend <;> simp [drainingTrace, hb, hp]

section
variable {R : State → Prop} {st : State → Exchange} {b e : Instr} {s : State}

/-- The completion that waits is served. -/
theorem ServesIn.reaches_drained_of_idle (h : ServesIn R st b e) (hs : R s) (hb : (st s).busy = false) :
    Reaches (fun t => (st t).Drained) (if (st s).pend then [b, e] else []) s := by
  cases hp : (st s).pend with
  | false => exact .nil ⟨hp, hb⟩
  | true =>
    obtain ⟨t, hbegin, ht, hacc⟩ := h.begins hs hp hb
    obtain ⟨u, hend, -, hfin⟩ := h.ends ht (by rw [hacc]; rfl)
    refine .cons hbegin (.cons hend (.nil ?_))
    rw [hfin, hacc]
    exact ⟨rfl, rfl⟩

/-- The service in progress ends first. -/
theorem ServesIn.reaches_drained (h : ServesIn R st b e) (hs : R s) :
    Reaches (fun t => (st t).Drained) ((st s).drainingTrace b e) s := by
  rw [Exchange.drainingTrace]
  cases hb : (st s).busy with
  | false => exact h.reaches_drained_of_idle hs hb
  | true =>
    obtain ⟨t, hend, ht, hfin⟩ := h.ends hs hb
    have hpend : (st t).pend = (st s).pend := by rw [hfin]; rfl
    rw [← hpend]
    exact .cons hend (h.reaches_drained_of_idle ht (by rw [hfin]; rfl))

end

/-! ### The engine at an empty port -/

/-- The work that both streams leave to the engine. -/
def State.work (s : State) : Nat :=
  s.acq.work + s.gen.work

theorem State.work_le (s : State) : s.work ≤ 6 :=
  Nat.add_le_add s.acq.work_le s.gen.work_le

theorem enabled_withTurn (i : Instr) (s : State) (k : Nat) : Enabled i (s.withTurn k) ↔ Enabled i s := by
  cases i <;> rfl

/-- In `RUN`, where no engine event is enabled, both streams are drained (R215). -/
theorem drained_of_none_enabled {s : State} (hr : s.runst = .run) (h : ¬∃ i, IsEngine i ∧ Enabled i s) :
    s.acq.Drained ∧ s.gen.Drained := by
  have off : ∀ i, IsEngine i → ¬Enabled i s := fun i hi hen => h ⟨i, hi, hen⟩
  have hab := off .acqBegin (by simp [IsEngine])
  have hae := off .acqEnd (by simp [IsEngine])
  have hgb := off .genBegin (by simp [IsEngine])
  have hge := off .genEnd (by simp [IsEngine])
  simp_all [Enabled, Exchange.Drained]

section
variable {i : Instr} {s t : State}

/-- An engine event does one piece of its stream's work and leaves the other stream's. -/
theorem exec_engine_work_lt (hi : IsEngine i) (h : exec i s = .next t) : t.work < s.work := by
  have hacq : Exchange.Serves (i = .acqBegin) (i = .acqEnd) s.acq t.acq := by
    obtain rfl | rfl | rfl | rfl := hi <;> exact exec_acq_serves nofun nofun h
  have hgen : Exchange.Serves (i = .genBegin) (i = .genEnd) s.gen t.gen := by
    obtain rfl | rfl | rfl | rfl := hi <;> exact exec_gen_serves nofun nofun h
  obtain hi | hi := (isEngine_iff i).mp hi
  · exact Nat.add_lt_add_of_lt_of_le (hacq.work_lt hi) hgen.work_le
  · exact Nat.add_lt_add_of_le_of_lt hacq.work_le (hgen.work_lt hi)

/-- Within the contracts an enabled engine event completes (R240). -/
theorem exec_engine_completes (hi : IsEngine i) (hen : Enabled i s) (hc : s.config.InContract) (hm : s.modu.Inv) :
    ∃ t, exec i s = .next t := by
  obtain ⟨hbanks, htable⟩ := hc
  obtain rfl | rfl | rfl | rfl := hi
  · obtain ⟨hr, hp, hb⟩ := hen
    exact ⟨_, exec_acqBegin_enabled hr hp hb⟩
  · obtain ⟨hr, hb⟩ := hen
    obtain ⟨t, hend, -⟩ := acqServing_servesIn.ends ⟨hr, hbanks⟩ hb
    exact ⟨t, hend⟩
  · obtain ⟨hr, hp, hb⟩ := hen
    exact ⟨_, exec_genBegin_enabled hr hp hb⟩
  · obtain ⟨hr, hb⟩ := hen
    obtain ⟨t, hend, -⟩ := genServing_servesIn.ends ⟨hr, htable, hm⟩ hb
    exact ⟨t, hend⟩

/-- At an empty port, where an engine event is enabled, the step is one (R215, R220, log 23). -/
theorem step_engine (hp : s.port = []) (hen : ∃ i, IsEngine i ∧ Enabled i s) :
    ∃ i k, IsEngine i ∧ Enabled i (s.withTurn k) ∧ step s = exec i (s.withTurn k) := by
  obtain ⟨i, k, hi, hen, ho⟩ := ownEvent_enabled hen
  exact ⟨i, k, hi, (enabled_withTurn i s k).mpr hen, by rw [step_nil hp, ho]⟩

theorem step_work_lt (hp : s.port = []) (hen : ∃ i, IsEngine i ∧ Enabled i s) (h : step s = .next t) :
    t.work < s.work := by
  obtain ⟨i, k, hi, -, hs⟩ := step_engine hp hen
  exact exec_engine_work_lt (s := s.withTurn k) hi (hs ▸ h)

/-! ### The presented events of a run of the machine's own step -/

theorem applyEvent_port {e : PortEvent} (h : applyEvent e s = .next t) : t.port = s.port := by
  obtain ⟨i, -, hi⟩ | ⟨w, -, -, -, hport⟩ := applyEvent_exec_or_keeps h
  · obtain ⟨-, hport, -⟩ := exec_environment hi
    exact hport
  · exact hport

theorem nextEvent_port (s : State) : (nextEvent s).2.port = s.port.tail := by
  cases hp : s.port with
  | nil =>
    rw [nextEvent_nil hp]
    obtain ⟨-, -, ho⟩ | ⟨i, k, -, ho⟩ := ownEvent_cases s <;> rw [ho] <;> exact hp
  | cons e rest =>
    rw [nextEvent_cons hp]
    rfl

/-- A step takes the first of the presented events, and no event presents another (log 1). -/
theorem step_port (h : step s = .next t) : t.port = s.port.tail :=
  (applyEvent_port h).trans (nextEvent_port s)

end

theorem IsStepRun.port_eq_drop {σ : Nat → State} (h : IsStepRun σ) (n k : Nat) :
    (σ (n + k)).port = (σ n).port.drop k := by
  induction k with
  | zero => rfl
  | succ k ih => rw [← Nat.add_assoc, step_port (h (n + k)), ih, List.tail_drop]

/-- The presented events come to their end, since each step takes one (log 1). -/
theorem IsStepRun.port_empties {σ : Nat → State} (h : IsStepRun σ) (n : Nat) : ∃ m ≥ n, ∀ k, (σ (m + k)).port = [] := by
  refine ⟨n + (σ n).port.length, Nat.le_add_right _ _, fun k => ?_⟩
  rw [Nat.add_assoc, h.port_eq_drop n, List.drop_eq_nil_of_le (Nat.le_add_right _ k)]

/-- No engine event stays enabled for ever in a run of the machine's own step: at the empty port every step where one is enabled
does a piece of the work, which is finite. -/
theorem IsStepRun.not_always_enabled {σ : Nat → State} (h : IsStepRun σ) {i : Instr} (hi : IsEngine i) (n : Nat) :
    ¬∀ m ≥ n, Enabled i (σ m) := by
  intro hen
  obtain ⟨m, hm, hempty⟩ := h.port_empties n
  have hworks : ∀ k, (σ (m + (k + 1))).work < (σ (m + k)).work := fun k =>
    step_work_lt (hempty k) ⟨i, hi, hen (m + k) (hm.trans (Nat.le_add_right m k))⟩ (h (m + k))
  exact not_strictAnti_of_wellFoundedLT (fun k => (σ (m + k)).work) (strictAnti_nat_of_succ_lt hworks)

/-! ### Draining both streams -/

/-- What the machine needs to drain both streams of its own, and keeps: nothing presented, `RUN`, and the contracts of R68 and R80
with the modulator's ranges, under which every service completes. -/
structure QuietPort (s : State) : Prop where
  empty : s.port = []
  running : s.runst = .run
  inContract : s.config.InContract
  modInv : s.modu.Inv

theorem runSteps_succ {s t : State} (h : step s = .next t) (n : Nat) : runSteps (n + 1) s = runSteps n t := by
  rw [runSteps, h]

/-- One step of the engine does a piece of the work and leaves the port quiet. -/
theorem QuietPort.step_works {s : State} (h : QuietPort s) (hen : ∃ i, IsEngine i ∧ Enabled i s) :
    ∃ t, step s = .next t ∧ QuietPort t ∧ t.work < s.work := by
  obtain ⟨hp, hr, hc, hm⟩ := h
  obtain ⟨i, k, hi, heni, hs⟩ := step_engine hp hen
  obtain ⟨t, ht⟩ := exec_engine_completes hi heni hc hm
  have hstep : step s = .next t := hs.trans ht
  obtain ⟨hconfig, hport, -⟩ := exec_environment ht
  have hforeign : i ≠ .rst ∧ i ≠ .cfgf := by
    obtain rfl | rfl | rfl | rfl := hi <;> exact ⟨nofun, nofun⟩
  obtain ⟨-, -, -, hrun⟩ := exec_keepsForeignElements hforeign.1 ht
  obtain ⟨hrunst, -⟩ := hrun hforeign.2
  exact ⟨t, hstep, ⟨hport.trans hp, hrunst.trans hr, hconfig.symm ▸ hc, exec_modulator_inv (s := s.withTurn k) hm ht⟩,
    step_work_lt hp hen hstep⟩

/-- As many steps as there is work drain both streams. -/
theorem QuietPort.drains (w : Nat) {s : State} (h : QuietPort s) (hw : s.work ≤ w) :
    ∃ n ≤ w, ∃ t, runSteps n s = .next t ∧ t.port = [] ∧ t.acq.Drained ∧ t.gen.Drained := by
  induction w generalizing s with
  | zero =>
    refine ⟨0, le_rfl, s, rfl, h.empty, drained_of_none_enabled h.running fun hen => ?_⟩
    obtain ⟨t, -, -, hlt⟩ := h.step_works hen
    omega
  | succ w ih =>
    by_cases hen : ∃ i, IsEngine i ∧ Enabled i s
    · obtain ⟨t, hstep, ht, hlt⟩ := h.step_works hen
      obtain ⟨n, hn, u, hu⟩ := ih ht (by omega)
      exact ⟨n + 1, Nat.succ_le_succ hn, u, (runSteps_succ hstep n).symm ▸ hu⟩
    · exact ⟨0, Nat.zero_le _, s, rfl, h.empty, drained_of_none_enabled h.running hen⟩

end Sys2Proof.Machine

namespace Sys2Proof.Proofs
open Sys2Proof Sys2Proof.Machine

/-! ### The obligations -/

/-- Settles O53: the service in progress ends, then the completion that waits is served. -/
theorem twoServicesDrainAStream : Obligations.TwoServicesDrainAStream := by
  intro s hr
  refine ⟨fun hc => ?_, fun htable hm => ?_⟩
  · obtain ⟨t, hrun, hd⟩ := acqServing_servesIn.reaches_drained (s := s) ⟨hr, hc⟩
    exact ⟨_, t, s.acq.drainingTrace_mem .acqBegin .acqEnd, hrun, hd⟩
  · obtain ⟨t, hrun, hd⟩ := genServing_servesIn.reaches_drained (s := s) ⟨hr, htable, hm⟩
    exact ⟨_, t, s.gen.drainingTrace_mem .genBegin .genEnd, hrun, hd⟩

/-- Settles O54: the work of a stream never grows, and while there is some, fairness makes it shrink; every `s.END` is one of the
at most two services that were left. -/
theorem fairRunsDrainAStream : Obligations.FairRunsDrainAStream := by
  intro ev σ n hrun hfair hr
  refine ⟨fun hq => ?_, fun hq => ?_⟩
  · have h := hrun.acq_fairService hfair hr hq
    exact ⟨h.drained, h.countP_ends_le⟩
  · have h := hrun.gen_fairService hfair hr hq
    exact ⟨h.drained, h.countP_ends_le⟩

/-- Settles O55: the presented events come to their end (log 1), and then the engine works until nothing is enabled (log 23), so
no engine event stays enabled untaken. -/
theorem stepRunsAreWeaklyFair : Obligations.StepRunsAreWeaklyFair := fun _ hrun _ hi n hen =>
  absurd hen (hrun.not_always_enabled hi n)

/-- Settles O56: the two streams hold at most six pieces of work, and each step does one. -/
theorem quietPortDrainsBothStreams : Obligations.QuietPortDrainsBothStreams := by
  intro s hp hr hc hm
  obtain ⟨n, hn, t, hrun, hport, ⟨hap, hab⟩, ⟨hgp, hgb⟩⟩ := QuietPort.drains 6 ⟨hp, hr, hc, hm⟩ s.work_le
  exact ⟨n, hn, t, hrun, hport, hap, hab, hgp, hgb⟩

/-- Settles O37: `IDLE` only clears the record of the latest output. -/
theorem idleChangesNothing : Obligations.IdleChangesNothing := fun _ => rfl

/-- Settles O38: in `RUN` the external event has its effect, which is the trap. -/
theorem configurationFaultHalts : Obligations.ConfigurationFaultHalts := fun _ hr =>
  ⟨State.external_run hr fun s => s.takeHalt .configurationFault 0xA0, rfl⟩

/-- Settles O39: the decoder rejects every word that is not legal as reserved (O2), and in `RUN` a reserved word is the trap. -/
theorem reservedWordHalts : Obligations.ReservedWordHalts := fun _ w data hr hw =>
  ⟨.reserved w, (otherWordsAreReserved w data).mpr hw, State.external_run hr fun s => s.takeHalt .unexpectedInterrupt w, rfl⟩

end Sys2Proof.Proofs
end

section
/-! PROOFS. The exceptions (60_exceptions.md): in `HALT` the events from outside are accepted without effect and the engine events
are not enabled (R237), so that nothing but `RST` leaves it (R236, R238). -/

namespace Sys2Proof.Machine

section
variable {i : Instr} {e : PortEvent} {s t u : State}

/-! ### What an event does in `HALT` -/

theorem State.not_run_of_halt (hr : s.runst = .halt) : s.runst ≠ .run := fun hrun => nomatch hrun.symm.trans hr

/-- Of the two outcomes of an external event, `HALT` leaves the one without effect (R237). -/
theorem State.silent_of_halt (hr : s.runst = .halt)
    (h : (s.runst = .run ∧ t = u) ∨ (s.runst = .halt ∧ t = s.silent)) : t = s.silent := by
  obtain ⟨hrun, -⟩ | ⟨-, ht⟩ := h
  · exact absurd hrun (State.not_run_of_halt hr)
  · exact ht

theorem exec_acqDone_halt {data : List Sample} (hr : s.runst = .halt) (hl : data.length = nAcq) :
    exec (.acqDone data) s = .next s.silent :=
  (if_pos hl).trans (State.external_halt hr (acqDoneEffect data))

/-- R237: an event of the table but `RST` that can be taken in `HALT` changes no state element there. -/
theorem exec_halt_silent (hr : s.runst = .halt) (hi : i ≠ .rst) (h : exec i s = .next t) : t = s.silent := by
  have hc := exec_cases h
  cases i with
  | rst => exact absurd rfl hi
  | idle => exact hc
  | acqBegin | acqEnd | genBegin | genEnd =>
    obtain ⟨hrun, -⟩ := hc
    exact absurd hrun (State.not_run_of_halt hr)
  | acqDone data =>
    obtain ⟨-, hext⟩ := hc
    exact State.silent_of_halt hr hext
  | acqErr | genDone | genErr | tick | cfgf => exact State.silent_of_halt hr hc

/-- R237, R238: what stands on the ports in `HALT` is `RST`, or it changes no state element; a reserved word is of the second
kind. -/
theorem applyEvent_halt_cases (hr : s.runst = .halt) (h : applyEvent e s = .next t) : decode e = .ok .rst ∨ t = s.silent := by
  obtain ⟨i, hd, -⟩ | ⟨w, -, hext⟩ := applyEvent_cases h
  · by_cases hi : i = .rst
    · exact .inl (hi ▸ hd)
    · exact .inr (exec_halt_silent hr hi (applyEvent_ok hd s ▸ h))
  · exact .inr (State.silent_of_halt hr hext)

/-- A step from `HALT` takes `RST`, or writes nothing but the fields of the model's own: the port, the counter of free turns and the
latest output record. -/
theorem step_halt_cases (hr : s.runst = .halt) (h : step s = .next t) :
    decode (nextEvent s).1 = .ok .rst ∨ ∃ p k, t = ((s.withPort p).withTurn k).silent := by
  obtain ⟨p, k, -, happ⟩ := step_cases h
  exact (applyEvent_halt_cases (s := (s.withPort p).withTurn k) hr happ).imp_right fun ht => ⟨p, k, ht⟩

end

end Sys2Proof.Machine

namespace Sys2Proof.Proofs
open Sys2Proof Sys2Proof.Machine

/-! ### The obligations -/

/-- Settles O44: no event but `RST` changes a state element in `HALT`, and neither does taking the next event from the port. -/
theorem onlyResetLeavesHalt : Obligations.OnlyResetLeavesHalt := by
  intro s t hr hstep
  obtain hrst | ⟨p, k, rfl⟩ := step_halt_cases hr hstep
  · exact .inl hrst
  · exact .inr ⟨hr, by simp [State.SameAcquisition, State.SameGeneration, State.SameDebounce]⟩

/-- Settles O40: the external events but `IDLE` pass the gate that `HALT` closes, and the engine events need `RUN`. -/
theorem haltIgnoresAllButReset : Obligations.HaltIgnoresAllButReset := by
  intro s hr
  have hrun := State.not_run_of_halt hr
  exact
    ⟨fun _ hl => exec_acqDone_halt hr hl,
     fun level => State.external_halt hr (tickEffect level),
     State.external_halt hr genDoneEffect,
     State.external_halt hr acqErrEffect,
     State.external_halt hr genErrEffect,
     State.external_halt hr fun s => s.takeHalt .configurationFault 0xA0,
     rfl,
     fun w => State.external_halt hr fun s => s.takeHalt .unexpectedInterrupt w,
     exec_acqBegin_refused fun hen => hrun hen.1,
     exec_acqEnd_refused fun hen => hrun hen.1,
     exec_genBegin_refused fun hen => hrun hen.1,
     exec_genEnd_refused fun hen => hrun hen.1⟩

end Sys2Proof.Proofs
end

section
/-! PROOFS. The reset (70_reset_and_hazards.md): `RST` answers the restarted state whatever the state was (R260), and the elements
of the reset state are the values of R39 and R261. -/

namespace Sys2Proof.Machine

/-- R260: `RST` has no gate: it is taken in `RUN` and in `HALT`, and its effect is the restart. -/
theorem exec_rst (s : State) : exec .rst s = .next s.restart := rfl

/-- R63: a memory without cells has no defined element. -/
@[simp] theorem Memory.read?_nil {w : Nat} (a : Nat) : Memory.read? ([] : Cells w) a = none := rfl

/-- R63, R261: after reset no element of `ACQ_BUF` is defined. -/
theorem State.read?_reset_acqBuf (a : Nat) : Memory.read? State.reset.acqBuf a = none := Memory.read?_nil a

/-- R63, R261: after reset no element of `GEN_BUF` is defined. -/
theorem State.read?_reset_genBuf (a : Nat) : Memory.read? State.reset.genBuf a = none := Memory.read?_nil a

end Sys2Proof.Machine

namespace Sys2Proof.Proofs
open Sys2Proof Sys2Proof.Machine

/-! ### The obligations -/

/-- Settles O42: `RST` restarts in every state; the restarted state is the reset state with the parameters, the port and the
counters of free values of the state before, and these counters are the witnesses. -/
theorem resetRestoresEverything : Obligations.ResetRestoresEverything := fun s =>
  ⟨s.freeAcq, s.freeGen, exec_rst s⟩

/-- Settles O43: each register of the reset state is its entry of the table of R39 by definition, and the buffers have no cells. -/
theorem resetStateValues : Obligations.ResetStateValues :=
  ⟨rfl, rfl, rfl, rfl, rfl, rfl, rfl, rfl, rfl, rfl, rfl, rfl, rfl, rfl, rfl,
    State.read?_reset_acqBuf, State.read?_reset_genBuf⟩

end Sys2Proof.Proofs
end
